-- ==== Sys2Proof/Word.lean ====
section
/-!
DEFINITION. The word type of the host port and its plainest arithmetic (0.4: a word is 32 bits, a range
a..b includes both ends). Everything else about words (field layouts, legality) is in Machine/Operands.lean.
-/

namespace Sys2Proof

/-- One byte of a frame (R4). -/
abbrev Byte := BitVec 8

/-- A word of the host port: 32 bits (0.4). -/
abbrev Word := BitVec 32

/-- A word address of the host port: 16 bits (R5, R6). -/
abbrev WordAddr := BitVec 16

/-- The data of one folio as its 256 data-port words, in the order of R45. -/
abbrev FolioData := List Word

/-- A physical location, numbered group × 64 + position (R113, R144). -/
abbrev Loc := Nat

end Sys2Proof
end

