-- ==== Sys2Proof/Syntax.lean ====
section
/-!
DEFINITION. The commands of the block: one constructor for each row of spec/opcode_table.json, with the operands the
environment supplies. A command is one of the part's indivisible units (R1): a word of a frame, an event on a pin, a
step of an apply, the completion of a media operation, a tick. Operands carry what comes from outside: the bits the
host clocks, and what a piece of the part's physics turns out to be (log 3: the outcome of an integrity check, the
result of a media read, the success of an erase).
-/

namespace Sys2Proof

/-- What the media reports for a folio read (R126): clean, corrected with the number of bits corrected (1 to 40), or
uncorrectable. -/
inductive ReadResult where
  | clean
  | corrected (bits : Nat)
  | uncorrectable
  deriving DecidableEq, Repr

/-- The commands. Every docstring names the row and the rule the table gives it. -/
inductive Instr where
  /-- FRAME_TYPE_DECODE (R4). `addr` and `len` are the 24 header bits the host clocks after the type byte (R5, log 2);
  a STATE POLL frame and a bad frame have no header and ignore them. -/
  | frameTypeDecode (typeByte : Byte) (addr : WordAddr) (len : Byte)
  /-- STATE_POLL (R4): the one word of a STATE POLL frame. -/
  | statePoll
  /-- READ_WORD_CAPTURE (R8). `bad` is the outcome of the integrity check of a captured DATA_PORT word (R53). -/
  | readWordCapture (bad : Bool)
  /-- FRAME_END (R7): SELn rises. -/
  | frameEnd
  /-- REGISTER_WRITE (R17): a completed write word at `addr`. -/
  | registerWrite (addr : WordAddr) (word : Word)
  /-- REJECT_LOG_CLEAR (R15): a completed write word at 0x05. -/
  | rejectLogClear (word : Word)
  /-- CD_WRITE (R18): a completed write word at 0x08 + n. -/
  | cdWrite (n : Fin 4) (word : Word)
  /-- SUBMIT (R20): a completed write word at 0x0C. -/
  | submit (word : Word)
  /-- ABORT (R42): a completed write word at 0x0D. -/
  | abort (word : Word)
  /-- RETIRE (R40): a completed write word at 0x15. -/
  | retire (word : Word)
  /-- DATA_PORT_WRITE (R49): a completed write word at `addr`, 0x19 or an alias in 0x100..0x1FF. -/
  | dataPortWrite (addr : WordAddr) (word : Word)
  /-- DATA_PORT_READ (R50): the completion of a captured DATA_PORT word. -/
  | dataPortRead
  /-- READ (R61): the sequencer starts a READ. -/
  | read
  /-- WRITE_CACHED (R65). `bad` is the outcome of the full check of the WRITE's buffer (R53). -/
  | writeCached (bad : Bool)
  /-- WRITE_THROUGH (R67). `bad` as for WRITE_CACHED. -/
  | writeThrough (bad : Bool)
  /-- WRITE_ATOMIC (R68). `bad` as for WRITE_CACHED. -/
  | writeAtomic (bad : Bool)
  /-- TRIM (R69). -/
  | trim
  /-- PREFETCH (R70). -/
  | prefetch
  /-- DISCARD (R71). -/
  | discard
  /-- CLEAN (R72). -/
  | clean
  /-- FLUSH (R72). -/
  | flush
  /-- PURGE (R74). -/
  | purge
  /-- SYNC (R76). -/
  | sync
  /-- DESCRIBE (R77). -/
  | describe
  /-- HEALTH_COUNTERS (R78). -/
  | healthCounters
  /-- HEALTH_DEFECT_LIST (R80). -/
  | healthDefectList
  /-- SLEEP (R81). -/
  | sleep
  /-- ERASE_ALL (R83). -/
  | eraseAll
  /-- APPLY_STEP (R28). `bad` is the outcome of the line check that a READ step makes (R97). -/
  | applyStep (bad : Bool)
  /-- LINE_WAIT_END (R66). -/
  | lineWaitEnd
  /-- RECLAIM_FOREGROUND_END (R123). -/
  | reclaimForegroundEnd
  /-- MEDIA_PORT_GRANT (R135). -/
  | mediaPortGrant
  /-- MEDIA_READ_COMPLETE (R126), with the result the media reports. -/
  | mediaReadComplete (result : ReadResult)
  /-- MEDIA_PROGRAM_COMPLETE (R117): a program that an apply step requested. -/
  | mediaProgramComplete
  /-- PROGRAM_FAIL (R129). -/
  | programFail
  /-- WBE_CAPTURE (R91). `bad` is the outcome of the line check (R97). -/
  | wbeCapture (bad : Bool)
  /-- TICKET_COMPLETE (R93). -/
  | ticketComplete
  /-- SLEEP_COMPLETION (R81, step 4). -/
  | sleepCompletion
  /-- DOZE_ENTRY (R169). -/
  | dozeEntry
  /-- MEDIA_READY (R171). -/
  | mediaReady
  /-- WAKE (R171): a completed write word at 0x03 that sets WAKE and not CRST. -/
  | wake (word : Word)
  /-- NEN_WRITE (R181): a completed write word at 0x03 that sets neither WAKE nor CRST. -/
  | nenWrite (word : Word)
  /-- CONTROLLER_RESET (R177): a completed write word at 0x03 that sets CRST. -/
  | controllerReset (word : Word)
  /-- PORT_RESET (R175): a completed write word at 0x02 that sets RESET. -/
  | portReset (word : Word)
  /-- PORT_RESET_RELEASE (R175): a completed write word at 0x02 with RESET 0. -/
  | portResetRelease (word : Word)
  /-- POR (R175): the supply rises or power is lost. -/
  | por
  /-- POR_END (R175): the supply is stable. -/
  | porEnd
  /-- PIN_RESET (R175): RESETn goes low. -/
  | pinReset
  /-- PIN_RESET_RELEASE (R175): RESETn goes high. -/
  | pinResetRelease
  /-- MOUNT_METADATA_READ_COMPLETE (R140). `readable` says whether the metadata's own ECC could correct it. -/
  | mountMetadataReadComplete (readable : Bool)
  /-- MOUNT_REERASE_COMPLETE (R139), with the success of the erase. -/
  | mountReeraseComplete (ok : Bool)
  /-- MOUNT_END (R144). -/
  | mountEnd
  /-- TICK (R172). `bad0` and `bad1` are the first words that this tick's check finds bad in TB0 and TB1 (R53). -/
  | tick (bad0 bad1 : Option Nat)
  /-- STALL_LIMIT (R131): a tick at which the operation in progress passes the limit. -/
  | stallLimit (bad0 bad1 : Option Nat)
  /-- POWERUP_STALL (R171): a tick at which the WAKING power-up passes the limit. -/
  | powerupStall (bad0 bad1 : Option Nat)
  /-- QUIET_END (R157): a tick at which the quiet count reaches 0. -/
  | quietEnd (bad0 bad1 : Option Nat)
  /-- COALESCE_TIMEOUT (R158): a tick at which the coalescing timer reaches its limit. -/
  | coalesceTimeout (bad0 bad1 : Option Nat)
  /-- DOZE_INTENT_ARM (R167): a tick at which the doze intent arms. -/
  | dozeIntentArm (bad0 bad1 : Option Nat)
  /-- EV_PENDING_CLEAR (R149): a completed write word at 0x20. -/
  | evPendingClear (word : Word)
  /-- FAULT_PENDING_CLEAR (R150): a completed write word at 0x23. -/
  | faultPendingClear (word : Word)
  /-- CLAIM (R153): the completion of a captured CLAIM word. -/
  | claim
  /-- END (R154): a completed write word at 0x25. -/
  | endWrite (word : Word)
  /-- SERVICE_WRITE (R155): a completed write word at 0x26. -/
  | serviceWrite (word : Word)
  /-- QUIET_WRITE (R157): a completed write word at 0x28. -/
  | quietWrite (word : Word)
  /-- COALESCE_WRITE (R159): a completed write word at 0x29. -/
  | coalesceWrite (word : Word)
  /-- CACHE_POLICY_WRITE (R94): a completed write word at 0x30. -/
  | cachePolicyWrite (word : Word)
  /-- DOZE_DELAY_WRITE (R167): a completed write word at 0x32. -/
  | dozeDelayWrite (word : Word)
  /-- RECLAIM_VICTIM_CHOICE (R124). -/
  | reclaimVictimChoice
  /-- RECLAIM_COPY_COMPLETE (R125). -/
  | reclaimCopyComplete
  /-- RECLAIM_ERASE_COMPLETE (R125), with the success of the erase. -/
  | reclaimEraseComplete (ok : Bool)
  /-- RELOCATION_COPY_COMPLETE (R128). -/
  | relocationCopyComplete
  /-- FRAME_START (R4): SELn falls. -/
  | frameStart
  deriving DecidableEq, Repr

end Sys2Proof
end

