-- ==== Sys2Proof/Decode.lean ====
section
/-!
DEFINITION. The command that a word spells by the table's bits. No row of spec/opcode_table.json gives bits: the rows
are events and words of frames, not encodings, so no word spells one.
-/

namespace Sys2Proof

/-- The command that `w`, of `nbits` bits, spells by spec/opcode_table.json: none, since no row gives bits. -/
def decodeTableWord (_nbits _w : Nat) : Option Instr := none

end Sys2Proof
end

