-- ==== Sys2Proof/Config.lean ====
section
/-!
DEFINITION. The fixed quantities of the LZN256 (Table 0-1) and the one value the manual leaves open.
-/

namespace Sys2Proof.Config

/-- Words of one folio (Table 0-1). -/
def folioWords : Nat := 256

/-- Logical capacity in folios, numbered 0 to 245,759 (Table 0-1). -/
def numFolios : Nat := 245760

/-- Physical folios of one erase group (Table 0-1). -/
def groupFolios : Nat := 64

/-- Erase groups of the flash array (Table 0-1). -/
def numGroups : Nat := 4096

/-- Groups that the logical capacity needs (R133). -/
def groupsNeeded : Nat := 3840

/-- A reserve of this many groups or fewer raises SPARE (R133). -/
def spareThreshold : Nat := 24

/-- A reserve of this many groups or fewer begins read-only mode (R134). -/
def readOnlyThreshold : Nat := 4

/-- Entries of the defect list (R132). -/
def defectCapacity : Nat := 256

/-- Erases a group may have seen before reclaim retires it for WEAR (R125). -/
def enduranceLimit : Nat := 3000

/-- Entries of the reservation table (R102). -/
def rvtEntries : Nat := 4

/-- Corrected bits above which a location is offered for relocation (R126). -/
def relocationThreshold : Nat := 28

/-- The largest number of bits ECC corrects in one folio (R126). -/
def eccBits : Nat := 40

/-- Entries of the relocation queue (R127). -/
def relocationCapacity : Nat := 16

/-- A media operation in progress for more ticks than this is abandoned (R131, R171). -/
def stallLimit : Nat := 400

/-- Background reclaim becomes active below this free count (R123). -/
def reclaimStart : Nat := 12

/-- Background reclaim stops being active at this free count (R123). -/
def reclaimStop : Nat := 16

/-- Reclaim is at foreground priority below this free count (R123). -/
def reclaimForeground : Nat := 3

/-- Entries of the service stack (R153). -/
def stackDepth : Nat := 6

/-- The value at which the idle timer stops counting (R167). -/
def idleMax : Nat := 25500

/-- Ticks of one unit of DOZE_DELAY (R167). -/
def dozeUnit : Nat := 100

/-- The family code of DEVICE_ID and of DESCRIBE word 0 (R184, Table 4-2). -/
def familyCode : Word := 0x00000256

/-- FREE VALUE (log 8). HEALTH words 1, 2 and 3 (lowest, highest and mean erase count of the groups that are not
RETIRED, Table 4-3) on a part whose 4096 groups are all RETIRED: the manual states no value there. -/
opaque healthOfNoGroup (word : Nat) : Word

end Sys2Proof.Config
end

