-- ==== Sys2Proof/Machine/State.lean ====
section
/-!
DEFINITION. The state of the LZN256: for each block of section 0.2 the state its chapter lists, as plain data, and the
queue of commands that wait. What the manual defines as a function of other state (NOTIFYn, ALERTn, the freeze, the
reserve, the free count, valid counts, words_remaining, the views RUN_ORDER, SLOT_STATE, CQ_STATUS, CACHE_STATUS,
MEDIA_STATUS, RSV_VIEW) is not stored twice: Machine/Flags.lean, Ops.lean and Registers.lean compute it.
-/

namespace Sys2Proof.Machine

/-! ### Names -/

/-- The three frame types (R4). -/
inductive FrameType where
  | readBurst
  | writeBurst
  | statePoll
  deriving DecidableEq, Repr

/-- The phase of the frame in progress (1.1). `header` lasts from the type byte to the first data word. -/
inductive FramePhase where
  | idle
  | typeByte
  | header
  | data
  | discarding
  deriving DecidableEq, Repr

/-- The side effect a captured read word still owes (R8): none; the consumption of a DATA_PORT word (R50); the
STRAY_DATA reject of a stray read with its cmd_code (R51); the claim fixed at capture or the F1 it raises (R153);
or a side effect that was dropped. -/
inductive ReadEffect where
  | nothing
  | consumeWord
  | strayReject (cmdCode : Byte)
  | pushClaim (newLevel : Nat)
  | raiseF1
  | dropped
  deriving DecidableEq, Repr

/-- What SDO carries (R3): high impedance while SELn is high, 0, or the bits of a word being read. -/
inductive Sdo where
  | highZ
  | low
  | bits (word : Word)
  deriving DecidableEq, Repr

/-- The ten reject reasons (Table 1-2). -/
inductive RejectReason where
  | badSlot
  | slotBusy
  | badCommand
  | badFlags
  | badToken
  | badCount
  | badRange
  | badRegisterValue
  | strayData
  | badFrame
  deriving DecidableEq, Repr

/-- The thirteen commands of Table 2-2. -/
inductive Cmd where
  | read
  | write
  | trim
  | prefetch
  | clean
  | purge
  | discard
  | flush
  | sync
  | describe
  | health
  | sleep
  | eraseAll
  deriving DecidableEq, Repr

/-- The slot states (R23). -/
inductive SlotState where
  | free
  | queued
  | loading
  | loaded
  | applying
  | settling
  | unloading
  | done
  deriving DecidableEq, Repr

/-- The completion statuses (R37). -/
inductive Status where
  | ok
  | aborted
  | condFail
  | writeProtected
  | unreadable
  | bufferError
  deriving DecidableEq, Repr

/-- The rows of the table that start an apply: which command, and by which path (R64, R78, R80). -/
inductive StartKind where
  | read
  | writeCached
  | writeThrough
  | writeAtomic
  | trim
  | prefetch
  | discard
  | clean
  | flush
  | purge
  | sync
  | describe
  | healthCounters
  | healthDefectList
  | sleep
  | eraseAll
  deriving DecidableEq, Repr

/-- The line states (R84). -/
inductive LineState where
  | invalid
  | filling
  | clean
  | dirty
  deriving DecidableEq, Repr

/-- The causes for which a reservation is broken (Table 6-2). -/
inductive BreakCause where
  | evicted
  | write
  | trim
  | discard
  | erase
  | fault
  | sleep
  | media
  deriving DecidableEq, Repr

/-- The kinds of a physical folio (R113). -/
inductive FolioKind where
  | data
  | tentative
  | trimNote
  | commitNote
  deriving DecidableEq, Repr

/-- The states of a map entry (R116). -/
inductive MapState where
  | never
  | mapped
  | trimmed
  | poisoned
  deriving DecidableEq, Repr

/-- The group states (R120). -/
inductive GroupState where
  | free
  | opened
  | full
  | retiring
  | retired
  deriving DecidableEq, Repr

/-- The origins of a retirement (R80, R132). -/
inductive Origin where
  | factory
  | programFail
  | eraseFail
  | wear
  | stall
  deriving DecidableEq, Repr

/-- Who requested the media operation in progress (R135). `orphan` is an apply step whose command a partial reset
removed (R178). -/
inductive Requester where
  | apply
  | wbe
  | reclaim
  | relocation
  | mount
  | orphan
  deriving DecidableEq, Repr

/-- The phase of a mount (8.1). The record phase lies within the unit that starts the mount and the ending phase
within MOUNT_END, so between units a mount is scanning or resolving. -/
inductive MountPhase where
  | scan
  | resolution
  deriving DecidableEq, Repr

/-- The class the scan gives a position that is not erased (R140). A torn position says whether its metadata is
readable. -/
inductive ScanClass where
  | torn (readable : Bool)
  | metadataError
  | complete
  deriving DecidableEq, Repr

/-- The maskable event sources, in the order of their natural index (R148). -/
inductive Event where
  | data
  | cmpl
  | rsvLost
  | reject
  | media
  | spare
  | rdOnly
  | power
  | mount
  deriving DecidableEq, Repr

/-- The four faults (R150). -/
inductive FaultCode where
  | f1
  | f2
  | f3
  | f4
  deriving DecidableEq, Repr

/-- The power states (R166). -/
inductive PowerState where
  | resetHeld
  | mounting
  | active
  | idle
  | doze
  | sleep
  | waking
  deriving DecidableEq, Repr

/-- The five kinds of reset (R175). -/
inductive ResetKind where
  | por
  | pin
  | port
  | controller
  | collision
  deriving DecidableEq, Repr

/-- One of the two transfer buffers. -/
inductive BufId where
  | tb0
  | tb1
  deriving DecidableEq, Repr

/-! ### Host port (chapter 1) -/

/-- REJECT_LOG (Table 1-1); no reason means reason code 0. -/
structure RejectLog where
  reason : Option RejectReason
  target : Byte
  cmdCode : Byte
  count : Nat
  deriving DecidableEq, Repr

/-- The completion-head snapshot (R12). -/
structure HeadWords where
  ch0 : Word
  ch1 : Word
  ch2 : Word
  ch3 : Word
  deriving DecidableEq, Repr

/-- A read word that has been captured and not yet completed (R8). -/
structure Captured where
  addr : WordAddr
  value : Word
  effect : ReadEffect
  deriving DecidableEq, Repr

/-- The state of the HPI (1.1) with its pins SELn and SDO. `nextAddr` and `wordsDue` are the address and the number of
the words of the frame that have not begun. -/
structure Hpi where
  selected : Bool
  phase : FramePhase
  frame : Option FrameType
  nextAddr : WordAddr
  wordsDue : Nat
  snapshot : Option HeadWords
  captured : Option Captured
  sdo : Sdo
  log : RejectLog
  deriving DecidableEq, Repr

/-! ### Command slots and the sequencer (chapter 2) -/

/-- The descriptor a slot holds (Table 2-1). -/
structure Desc where
  cmd : Cmd
  rsv : Bool
  cond : Bool
  atom : Bool
  thru : Bool
  urgent : Bool
  token : Byte
  count : Nat
  folio : Nat
  aux : Word
  hostTag : Word
  deriving DecidableEq, Repr

/-- The seven flags of a completion record (R38). -/
structure CompFlags where
  abortLate : Bool
  corrected : Bool
  unmapped : Bool
  rsvMade : Bool
  discardRaced : Bool
  purgePartial : Bool
  sleepSkipped : Bool
  deriving DecidableEq, Repr

/-- A line a CLEAN or FLUSH waits for, with its folio and version at the commit point (R72). -/
structure Triple where
  line : Fin 32
  folio : Nat
  version : Word
  deriving DecidableEq, Repr

/-- A slot record (R23). `triples` are the unsatisfied triples of a CLEAN or FLUSH (R73); `purged` counts the lines a
PURGE drops while it settles (R75). Which buffer a slot holds stands in the buffer (`Buffer.holder`). -/
structure Slot where
  state : SlotState
  desc : Desc
  lateAbort : Bool
  status : Status
  foliosDone : Nat
  flags : CompFlags
  detail : Word
  triples : List Triple
  purged : Nat
  deriving DecidableEq, Repr

/-- A completion record (R36). -/
structure Completion where
  slot : Fin 8
  cmd : Cmd
  status : Status
  foliosDone : Nat
  flags : CompFlags
  detail : Word
  hostTag : Word
  deriving DecidableEq, Repr

/-- The metadata record of a physical folio (R113). `count` is 0 for a kind without one, and `base` is 0 for a kind
without one. The completion mark is `Cell.complete`. -/
structure Metadata where
  kind : FolioKind
  start : Nat
  count : Nat
  seq : Word
  copyMark : Bool
  base : Word
  deriving DecidableEq, Repr

/-- What a program writes (R113). `rotten` marks the copy of an uncorrectable folio, whose data stands exactly as
stored, so that it reads as uncorrectable again (R125). -/
structure Prog where
  metadata : Metadata
  data : FolioData
  rotten : Bool
  deriving DecidableEq, Repr

/-- A media operation that an apply step has requested (R60): a fill of a line, a read straight into the buffer, or a
program. -/
inductive MediaReq where
  | fill (line : Fin 32) (folio : Nat)
  | direct (folio : Nat)
  | prog (p : Prog)
  deriving DecidableEq, Repr

/-- Where the current apply stands between two units (R28, R60): between two steps, or within a step that waits for a
line, for the end of foreground reclaim, for its media operation, or, for a SLEEP, for writeback and quiescence. -/
inductive Wait where
  | between
  | forLine
  | forReclaim
  | forMedia (r : MediaReq)
  | forSleep
  deriving DecidableEq, Repr

/-- The apply in progress. `step` numbers its steps after the commit point: folio positions for READ, WRITE and
PREFETCH (an atomic WRITE counts on: positions `count` is the commit note and `count + 1 + i` the cache update of
position i), and invalidation, note and unmapping (0, 1, 2) for TRIM and ERASE_ALL. `seq0` is S0 of an atomic WRITE and
the note's sequence of a TRIM or ERASE_ALL; `accepted` are the positions of an atomic WRITE whose offer was accepted
(R145); `pendingLocs` are its pending folios (R122); `noteLoc` is where the trim note was programmed; `heldRetry` marks a
program that was abandoned at the stall limit and whose retry waits for the end of the freeze (R131, R145). -/
structure Apply where
  slot : Fin 8
  kind : StartKind
  step : Nat
  wait : Wait
  seq0 : Word
  accepted : List Nat
  pendingLocs : List Loc
  noteLoc : Option Loc
  heldRetry : Bool
  deriving DecidableEq, Repr

/-- The state of the CSQ (2.1). The buffers stand in `DataPort`. -/
structure Csq where
  cd : Vector Word 4
  slots : Vector Slot 8
  runQueue : List (Fin 8)
  completions : List Completion
  apply : Option Apply
  deriving DecidableEq, Repr

/-! ### Data port (chapter 3) -/

/-- A transfer buffer: its holder, the words it holds from word 0 upward, and the words of an OUT phase consumed. -/
structure Buffer where
  holder : Option (Fin 8)
  words : List Word
  consumed : Nat
  deriving DecidableEq, Repr

/-- The state of the data port (3.1). -/
structure DataPort where
  tb0 : Buffer
  tb1 : Buffer
  owner : Option (Fin 8)
  deriving DecidableEq, Repr

/-! ### Folio cache and writeback (chapter 5) -/

/-- A line record (R84). `on_list` is membership in `Cache.dirtyList`. -/
structure Line where
  state : LineState
  folio : Nat
  version : Word
  purgeMark : Option (Fin 8)
  voidTicket : Bool
  data : FolioData
  deriving DecidableEq, Repr

/-- A writeback ticket (R91). -/
structure Ticket where
  line : Fin 32
  folio : Nat
  version : Word
  seq : Word
  data : FolioData
  deriving DecidableEq, Repr

/-- The state of the FC and the WBE (5.1). `lru` ranks the lines from least to most recently used. -/
structure Cache where
  lines : Vector Line 32
  lru : List (Fin 32)
  dirtyList : List (Fin 32)
  ticket : Option Ticket
  draining : Bool
  high : BitVec 6
  low : BitVec 6
  wt : Bool
  deriving DecidableEq, Repr

/-! ### Reservation table (chapter 6) -/

/-- A reservation entry (R102). -/
structure Rsv where
  token : Byte
  start : Nat
  length : Nat
  deriving DecidableEq, Repr

/-- The latest loss of a reservation (R112). -/
structure RsvLoss where
  cause : BreakCause
  token : Byte
  deriving DecidableEq, Repr

/-- The RVT (6.1), oldest entry first, and RSV_LOST. -/
structure Rvt where
  entries : List Rsv
  lost : Option RsvLoss
  deriving DecidableEq, Repr

/-! ### Media manager (chapter 7) -/

/-- A programmed position of the flash (R113). A position that was used up or torn has no completion mark. `metaLost` marks one
that a mount has found to be a metadata error: it is never a candidate again (R143, log 45). -/
structure Cell where
  metadata : Metadata
  data : FolioData
  complete : Bool
  rotten : Bool
  metaLost : Bool := false
  deriving DecidableEq, Repr

/-- A map entry (R116). -/
structure MapEntry where
  state : MapState
  target : Option Loc
  seq : Word
  deriving DecidableEq, Repr

/-- The map: the entry of every folio that is not listed, and the listed folios in ascending order, none of them with
the unlisted entry. -/
structure FolioMap where
  unlisted : MapEntry
  items : List (Nat × MapEntry)
  deriving DecidableEq, Repr

/-- A group (R114, R120): its state, the origin of its retirement, its erase count, its erasing mark (R139) and its
next free position. `state` RETIRING or RETIRED, `origin`, `erases` and `erasing` are the group's part of the record
region; the other states are volatile. `nextFree` stands past the positions that have been programmed or used up (R113). -/
structure Group where
  state : GroupState
  origin : Option Origin
  erases : Nat
  erasing : Bool
  nextFree : Nat
  deriving DecidableEq, Repr

/-- The record of a live commit note (R122). -/
structure CommitNote where
  start : Nat
  count : Nat
  base : Word
  seq : Word
  loc : Loc
  deriving DecidableEq, Repr

/-- An entry of the defect list (R132). -/
structure Defect where
  group : Nat
  origin : Origin
  deriving DecidableEq, Repr

/-- A copy of reclaim or relocation whose program has not completed: its source and what is programmed (R125, R128). -/
structure Copy where
  src : Loc
  prog : Prog
  deriving DecidableEq, Repr

/-- Reclaim's victim (R125): the group, the position reached, and the copy to be programmed, if any. -/
structure Victim where
  group : Nat
  pos : Nat
  copy : Option Copy
  deriving DecidableEq, Repr

/-- The operations of the media port. A mount's metadata reads and re-erases are `read` and `erase` of the requester
`mount`. -/
inductive MediaOp where
  | read (loc : Loc)
  | program (loc : Loc) (p : Prog)
  | erase (group : Nat)
  deriving DecidableEq, Repr

/-- The operation in progress at the media port and its stall timer (R131). -/
structure PortOp where
  req : Requester
  op : MediaOp
  ticks : Nat
  deriving DecidableEq, Repr

/-- HEALTH words 9 to 17 (R79). -/
structure Health where
  correctedReads : Word
  correctedBits : Word
  uncorrectableReads : Word
  relocationsDone : Word
  relocationsDropped : Word
  mountTorn : Word
  mountMetaErrors : Word
  mountReerased : Word
  mountClosed : Word
  deriving DecidableEq, Repr

/-- The state of the MM (7.1). `flash` lists the programmed positions in ascending location; `groups` lists in ascending
number the groups that are not FREE with erase count 0; `reclaimFill` is the memory of R123 (set below 12 free groups,
cleared at 16); `relocating` is the location relocation has taken, and its copy once read. -/
structure Media where
  flash : List (Nat × Cell)
  map : FolioMap
  seq : Word
  groups : List (Nat × Group)
  hostOpen : Option Nat
  reclaimOpen : Option Nat
  commitNotes : List CommitNote
  defects : List Defect
  reclaimFill : Bool
  victim : Option Victim
  relocQueue : List Loc
  relocCopy : Option Copy
  readOnly : Bool
  port : Option PortOp
  health : Health
  deriving DecidableEq, Repr

/-! ### Mount engine (chapter 8) -/

/-- The state of a mount in progress (8.1). `scanned` keeps the class of each position read that is not erased, `fullGroups`
the groups the scan closed or found full. The highest sequence of R143 is computed from `scanned`. -/
structure Mount where
  phase : MountPhase
  scanned : List (Loc × ScanClass)
  fullGroups : List Nat
  torn : Nat
  metaErrors : Nat
  reerased : Nat
  closed : Nat
  firstMetaError : Option Loc
  raisedF3 : Bool
  deriving DecidableEq, Repr

/-! ### Notification controller (chapter 9) -/

/-- The running coalescing timer (R158). -/
structure CoalesceTimer where
  elapsed : Nat
  limit : Nat
  deriving DecidableEq, Repr

/-- The state of the NTC (9.1). `stack` holds its most recent entry first. The freeze is computed (R161). -/
structure Ntc where
  evPending : BitVec 9
  evEnable : BitVec 9
  evLevel : BitVec 27
  faults : BitVec 4
  f2Detail : BitVec 18
  level : Nat
  stack : List Nat
  nestOff : Bool
  quiet : BitVec 12
  threshold : BitVec 4
  timeout : Byte
  unannounced : Nat
  timer : Option CoalesceTimer
  deriving DecidableEq, Repr

/-! ### Power manager (chapter 10) -/

/-- The state of the PWR (10.1). `powerUp` is the stall timer of a WAKING power-up; a WAKING without one waits for an
operation that was still in progress (R171). `mediaOn` says whether the media is powered (R169, R170). -/
structure Pwr where
  state : PowerState
  idleTimer : Nat
  intent : Bool
  dozeDelay : Byte
  powerUp : Option Nat
  mediaOn : Bool
  deriving DecidableEq, Repr

/-! ### Reset controller (chapter 11) -/

/-- The reset controller (11.1) with the pin RESETn, PORT_CONFIG.RESET and HOST_CONTROL.NEN. `inReset` is the POR or PIN
reset in progress. `collision` is the record of RESET_CAUSE: the higher and the arriving fault. -/
structure Rst where
  resetnLow : Bool
  inReset : Option ResetKind
  portReset : Bool
  nen : Bool
  cause : ResetKind
  collision : Option (FaultCode × FaultCode)
  deriving DecidableEq, Repr

/-- The whole machine. `pending` is the queue of the commands that wait, first in, first out: it is the model's own. -/
structure State where
  hpi : Hpi
  csq : Csq
  dp : DataPort
  fc : Cache
  rvt : Rvt
  mm : Media
  mount : Option Mount
  ntc : Ntc
  pwr : Pwr
  rst : Rst
  pending : List Instr
  deriving DecidableEq, Repr

/-- The machine never stops with a fault: the manual gives every condition an effect (a reject, a status, an event, a
raised fault F1 to F4), so no constructor is needed and none is raised. Safe: nothing is stopped. -/
inductive Fault where
  deriving DecidableEq, Repr

/-- The reasons for which a command is refused. -/
inductive Refusal where
  /-- Raised by an arm of exec for a command that has no meaning yet; no arm raises it now. Safe: the machine stops. -/
  | notModelled (mnemonic : String)
  deriving DecidableEq, Repr

/-! ### Reset values -/

/-- An empty REJECT_LOG (R13). -/
def RejectLog.empty : RejectLog := { reason := none, target := 0, cmdCode := 0, count := 0 }

/-- The HPI with no frame and SELn high. -/
def Hpi.reset : Hpi :=
  { selected := false, phase := .idle, frame := none, nextAddr := 0, wordsDue := 0, snapshot := none, captured := none
    sdo := .highZ, log := .empty }

/-- No flag of R38. -/
def CompFlags.none : CompFlags :=
  { abortLate := false, corrected := false, unmapped := false, rsvMade := false, discardRaced := false
    purgePartial := false, sleepSkipped := false }

/-- A FREE slot; its other fields are meaningless (R23). -/
def Slot.free : Slot :=
  { state := .free
    desc := { cmd := .sync, rsv := false, cond := false, atom := false, thru := false, urgent := false, token := 0
              count := 0, folio := 0, aux := 0, hostTag := 0 }
    lateAbort := false, status := .ok, foliosDone := 0, flags := .none, detail := 0, triples := [], purged := 0 }

/-- The CSQ after every reset (R43). -/
def Csq.reset : Csq :=
  { cd := Vector.replicate 4 0, slots := Vector.replicate 8 Slot.free, runQueue := [], completions := [], apply := none }

/-- A free, empty buffer (R44). -/
def Buffer.empty : Buffer := { holder := none, words := [], consumed := 0 }

/-- The data port after every reset (R44). -/
def DataPort.reset : DataPort := { tb0 := .empty, tb1 := .empty, owner := none }

/-- A line after a full reset (R100). Its folio, void_ticket and data have no value of the manual's there (R84, log 32). -/
def Line.reset : Line :=
  { state := .invalid, folio := 0, version := 0, purgeMark := none, voidTicket := false, data := [] }

/-- The cache after a full reset (R100). -/
def Cache.reset : Cache :=
  { lines := Vector.replicate 32 Line.reset, lru := List.finRange 32, dirtyList := [], ticket := none, draining := false
    high := 24, low := 16, wt := false }

/-- The RVT after every reset (R103). -/
def Rvt.reset : Rvt := { entries := [], lost := none }

/-- The entry of a folio never written or trimmed (R116). -/
def MapEntry.never : MapEntry := { state := .never, target := none, seq := 0 }

/-- The map with every folio NEVER. -/
def FolioMap.empty : FolioMap := { unlisted := .never, items := [] }

/-- A FREE, erased group with erase count 0: what an unlisted group is (log 7). -/
def Group.fresh : Group := { state := .free, origin := none, erases := 0, erasing := false, nextFree := 0 }

/-- HEALTH words 9 to 17 at 0 (R79, log 7). -/
def Health.zero : Health :=
  { correctedReads := 0, correctedBits := 0, uncorrectableReads := 0, relocationsDone := 0, relocationsDropped := 0
    mountTorn := 0, mountMetaErrors := 0, mountReerased := 0, mountClosed := 0 }

/-- The MM after a full reset of a part whose flash is erased and whose record region holds no retirement (log 7). The
volatile state stands at its empty value until the mount's end rebuilds it (R137, R144). -/
def Media.blank : Media :=
  { flash := [], map := .empty, seq := 1, groups := [], hostOpen := none, reclaimOpen := none, commitNotes := []
    defects := [], reclaimFill := false, victim := none, relocQueue := [], relocCopy := none, readOnly := false
    port := none, health := .zero }

/-- The NTC after a full reset (R164). -/
def Ntc.reset : Ntc :=
  { evPending := 0, evEnable := 0, evLevel := 0, faults := 0, f2Detail := 0, level := 0, stack := [], nestOff := false
    quiet := 0, threshold := 1, timeout := 0, unannounced := 0, timer := none }

/-- The PWR after a full reset (R174); `state` is what the reset's phase gives. -/
def Pwr.reset : Pwr :=
  { state := .resetHeld, idleTimer := 0, intent := false, dozeDelay := 50, powerUp := none, mediaOn := true }

/-- A mount that has read the record region and has scanned nothing yet (R139). -/
def Mount.start : Mount :=
  { phase := .scan, scanned := [], fullGroups := [], torn := 0, metaErrors := 0, reerased := 0, closed := 0
    firstMetaError := none, raisedF3 := false }

end Sys2Proof.Machine

/-- The machine right after a power-on reset has ended (R175, R174): every block as Table 11-1 gives it for POR, and the
mount that follows begun, its first metadata read, of group 0 position 0, in progress at the media port (R138, R139). The flash
is erased and the record region empty (log 7). -/
def Sys2Proof.Machine.State.reset : Sys2Proof.Machine.State :=
  { hpi := .reset, csq := .reset, dp := .reset, fc := .reset, rvt := .reset
    mm := { Sys2Proof.Machine.Media.blank with port := some { req := .mount, op := .read 0, ticks := 0 } }
    mount := some .start, ntc := .reset
    pwr := { Sys2Proof.Machine.Pwr.reset with state := .mounting }
    rst := { resetnLow := false, inReset := none, portReset := false, nen := false, cause := .por, collision := none }
    pending := [] }
end

