-- ==== Sys2Proof/WellFormed.lean ====
section
/-!
DEFINITION. Which commands are well formed: the operands that the row of the table can carry at all. The machine gives
every command a meaning; an ill-formed one names a word under a row that is not its own, or a media result that the
ECC of R126 cannot report.
-/

namespace Sys2Proof

/-- The addresses whose writes have a row of their own, so that REGISTER_WRITE (R17) is not the row of a word there. -/
def ownRowAddrs : List WordAddr :=
  [0x02, 0x03, 0x05, 0x08, 0x09, 0x0A, 0x0B, 0x0C, 0x0D, 0x15, 0x19, 0x20, 0x23, 0x25, 0x26, 0x28, 0x29, 0x30, 0x32]

/-- R10: 0x19 and the data window 0x100..0x1FF decode to DATA_PORT. -/
def isDataPortAddr (a : WordAddr) : Bool := a == 0x19 || (a.toNat / 256 == 1)

/-- R126: a corrected read corrects 1 to 40 bits. -/
def ReadResult.wellFormed : ReadResult → Bool
  | .corrected bits => 1 ≤ bits && bits ≤ 40
  | _ => true

/-- A word a check finds bad is one of the 4096 words of a buffer (R45, R53). -/
def badWordWellFormed : Option Nat → Bool
  | none => true
  | some w => w < 4096

/-- The operands each row can carry. -/
def Instr.wellFormed : Instr → Bool
  | .frameTypeDecode _ _ _ => true
  | .statePoll => true
  | .readWordCapture _ => true
  | .frameEnd => true
  | .registerWrite addr _ => !(ownRowAddrs.contains addr) && !(isDataPortAddr addr)
  | .rejectLogClear _ => true
  | .cdWrite _ _ => true
  | .submit _ => true
  | .abort _ => true
  | .retire _ => true
  | .dataPortWrite addr _ => isDataPortAddr addr
  | .dataPortRead => true
  | .read => true
  | .writeCached _ => true
  | .writeThrough _ => true
  | .writeAtomic _ => true
  | .trim => true
  | .prefetch => true
  | .discard => true
  | .clean => true
  | .flush => true
  | .purge => true
  | .sync => true
  | .describe => true
  | .healthCounters => true
  | .healthDefectList => true
  | .sleep => true
  | .eraseAll => true
  | .applyStep _ => true
  | .lineWaitEnd => true
  | .reclaimForegroundEnd => true
  | .mediaPortGrant => true
  | .mediaReadComplete result => result.wellFormed
  | .mediaProgramComplete => true
  | .programFail => true
  | .wbeCapture _ => true
  | .ticketComplete => true
  | .sleepCompletion => true
  | .dozeEntry => true
  | .mediaReady => true
  | .wake word => word.getLsbD 1 && !word.getLsbD 2
  | .nenWrite word => !word.getLsbD 1 && !word.getLsbD 2
  | .controllerReset word => word.getLsbD 2
  | .portReset word => word.getLsbD 0
  | .portResetRelease word => !word.getLsbD 0
  | .por => true
  | .porEnd => true
  | .pinReset => true
  | .pinResetRelease => true
  | .mountMetadataReadComplete _ => true
  | .mountReeraseComplete _ => true
  | .mountEnd => true
  | .tick bad0 bad1 => badWordWellFormed bad0 && badWordWellFormed bad1
  | .stallLimit bad0 bad1 => badWordWellFormed bad0 && badWordWellFormed bad1
  | .powerupStall bad0 bad1 => badWordWellFormed bad0 && badWordWellFormed bad1
  | .quietEnd bad0 bad1 => badWordWellFormed bad0 && badWordWellFormed bad1
  | .coalesceTimeout bad0 bad1 => badWordWellFormed bad0 && badWordWellFormed bad1
  | .dozeIntentArm bad0 bad1 => badWordWellFormed bad0 && badWordWellFormed bad1
  | .evPendingClear _ => true
  | .faultPendingClear _ => true
  | .claim => true
  | .endWrite _ => true
  | .serviceWrite _ => true
  | .quietWrite _ => true
  | .coalesceWrite _ => true
  | .cachePolicyWrite _ => true
  | .dozeDelayWrite _ => true
  | .reclaimVictimChoice => true
  | .reclaimCopyComplete => true
  | .reclaimEraseComplete _ => true
  | .relocationCopyComplete => true
  | .frameStart => true

end Sys2Proof
end

