-- ==== Sys2Proof/Machine/Operands.lean ====
section
/-!
DEFINITION. The layouts of the words of the host port: fields, codes, the descriptor, the legality of a written word
(R17, R183) and the checks of a submission (R21).
-/

namespace Sys2Proof.Machine

/-! ### Fields of words -/

/-- The field of `len` bits of `w` whose lowest bit is `lo`. -/
def field (w : Word) (lo len : Nat) : Nat := (w.extractLsb' lo len).toNat

/-- A word composed of fields, each a value and its lowest bit; the bits that no field covers read 0 (R183). -/
def pack (fields : List (Nat × Nat)) : Word := BitVec.ofNat 32 ((fields.map fun f => f.1 * 2 ^ f.2).sum)

/-- A register word of fields, each its value, its lowest bit and its length: a field shows as many low bits of its value as
it has, and the bits that no field covers read 0 (R183). -/
def layout (fields : List (Nat × Nat × Nat)) : Word :=
  fields.foldr (fun f w => BitVec.ofNat 32 (f.1 % 2 ^ f.2.2) <<< f.2.1 ||| w) 0

/-- A bit as a number. -/
def bit (b : Bool) : Nat := if b then 1 else 0

/-- No bit of `mask` is set in `w`: its reserved bits are 0 (R183). -/
def clearIn (mask w : Word) : Bool := (w &&& mask) == 0

/-! ### Codes -/

/-- Table 2-2. -/
def Cmd.code : Cmd → Nat
  | .read => 1
  | .write => 2
  | .trim => 3
  | .prefetch => 4
  | .clean => 5
  | .purge => 6
  | .discard => 7
  | .flush => 8
  | .sync => 9
  | .describe => 10
  | .health => 11
  | .sleep => 12
  | .eraseAll => 13

/-- The command a cmd field names; 0x00 and 0x0E..0xFF name none (Table 2-2). -/
def cmdOfCode : Nat → Option Cmd
  | 1 => some .read
  | 2 => some .write
  | 3 => some .trim
  | 4 => some .prefetch
  | 5 => some .clean
  | 6 => some .purge
  | 7 => some .discard
  | 8 => some .flush
  | 9 => some .sync
  | 10 => some .describe
  | 11 => some .health
  | 12 => some .sleep
  | 13 => some .eraseAll
  | _ => none

/-- R37. -/
def Status.code : Status → Nat
  | .ok => 0
  | .aborted => 1
  | .condFail => 2
  | .writeProtected => 3
  | .unreadable => 4
  | .bufferError => 5

/-- R23. -/
def SlotState.code : SlotState → Nat
  | .free => 0
  | .queued => 1
  | .loading => 2
  | .loaded => 3
  | .applying => 4
  | .settling => 5
  | .unloading => 6
  | .done => 7

/-- Table 1-2. -/
def RejectReason.code : RejectReason → Nat
  | .badSlot => 1
  | .slotBusy => 2
  | .badCommand => 3
  | .badFlags => 4
  | .badToken => 5
  | .badCount => 6
  | .badRange => 7
  | .badRegisterValue => 8
  | .strayData => 9
  | .badFrame => 10

/-- Table 6-2. -/
def BreakCause.code : BreakCause → Nat
  | .evicted => 1
  | .write => 2
  | .trim => 3
  | .discard => 4
  | .erase => 5
  | .fault => 6
  | .sleep => 7
  | .media => 8

/-- R80. -/
def Origin.code : Origin → Nat
  | .factory => 0
  | .programFail => 1
  | .eraseFail => 2
  | .wear => 3
  | .stall => 4

/-- Table 12-2. -/
def PowerState.code : PowerState → Nat
  | .resetHeld => 1
  | .mounting => 2
  | .active => 3
  | .idle => 4
  | .doze => 5
  | .sleep => 6
  | .waking => 7

/-- R180. -/
def ResetKind.code : ResetKind → Nat
  | .por => 1
  | .pin => 2
  | .port => 3
  | .controller => 4
  | .collision => 5

/-- The natural index of a source, which is its code (R148). -/
def Event.index : Event → Nat
  | .data => 0
  | .cmpl => 1
  | .rsvLost => 2
  | .reject => 3
  | .media => 4
  | .spare => 5
  | .rdOnly => 6
  | .power => 7
  | .mount => 8

/-- The bit of a fault in FAULT_PENDING (R150). -/
def FaultCode.index : FaultCode → Nat
  | .f1 => 0
  | .f2 => 1
  | .f3 => 2
  | .f4 => 3

/-- The source code of a fault (R150). -/
def FaultCode.code (f : FaultCode) : Nat := 16 + f.index

/-- The level of a fault (R150). -/
def FaultCode.level (f : FaultCode) : Nat := 7 + f.index

/-! ### Commands -/

/-- The range commands (R19). -/
def Cmd.isRange : Cmd → Bool
  | .read => true
  | .write => true
  | .trim => true
  | .prefetch => true
  | .clean => true
  | .purge => true
  | .discard => true
  | .flush => false
  | .sync => false
  | .describe => false
  | .health => false
  | .sleep => false
  | .eraseAll => false

/-- The data-bearing commands (2.6). -/
def Cmd.isData : Cmd → Bool
  | .read => true
  | .write => true
  | .describe => true
  | .health => true
  | .trim => false
  | .prefetch => false
  | .clean => false
  | .purge => false
  | .discard => false
  | .flush => false
  | .sync => false
  | .sleep => false
  | .eraseAll => false

/-- Which row starts the command of a descriptor, with CACHE_POLICY.WT as it stands (R27, R64, R78, R80). -/
def Desc.startKind (d : Desc) (wt : Bool) : StartKind :=
  match d.cmd with
  | .read => .read
  | .write => if d.atom then .writeAtomic else if d.thru || wt then .writeThrough else .writeCached
  | .trim => .trim
  | .prefetch => .prefetch
  | .clean => .clean
  | .purge => .purge
  | .discard => .discard
  | .flush => .flush
  | .sync => .sync
  | .describe => .describe
  | .health => if d.aux = 0 then .healthCounters else .healthDefectList
  | .sleep => .sleep
  | .eraseAll => .eraseAll

/-- The serializing kinds (R31). -/
def StartKind.serializing : StartKind → Bool
  | .writeThrough => true
  | .writeAtomic => true
  | .sleep => true
  | .eraseAll => true
  | .read => false
  | .writeCached => false
  | .trim => false
  | .prefetch => false
  | .discard => false
  | .clean => false
  | .flush => false
  | .purge => false
  | .sync => false
  | .describe => false
  | .healthCounters => false
  | .healthDefectList => false

/-! ### The descriptor and its checks -/

/-- The reserved bits of CD0 (Table 12-3). -/
def cd0Reserved : Word := 0xE000E000

/-- The cmd field of CD0. -/
def cmdField (cd0 : Word) : Byte := cd0.extractLsb' 0 8

/-- The descriptor that the staging words hold, for a cmd field that names a command (Table 12-3). -/
def descOf (c : Cmd) (cd0 cd1 cd2 cd3 : Word) : Desc :=
  { cmd := c, rsv := cd0.getLsbD 24, cond := cd0.getLsbD 25, atom := cd0.getLsbD 26, thru := cd0.getLsbD 27
    urgent := cd0.getLsbD 28, token := cd0.extractLsb' 16 8, count := field cd0 8 5, folio := cd1.toNat, aux := cd2
    hostTag := cd3 }

/-- Check 4 of R21. -/
def Desc.flagsLegal (d : Desc) : Bool :=
  (!d.rsv || d.cmd == .read) && (!(d.cond || d.atom || d.thru) || d.cmd == .write)

/-- Check 5 of R21. -/
def Desc.tokenLegal (d : Desc) : Bool := !(d.rsv || d.cond) || d.token != 0

/-- Check 6 of R21. -/
def Desc.countLegal (d : Desc) : Bool :=
  if d.cmd.isRange then decide (1 ≤ d.count ∧ d.count ≤ 16)
  else if d.cmd.isData then decide (d.count = 1)
  else decide (d.count = 0)

/-- Check 7 of R21. -/
def Desc.rangeLegal (d : Desc) : Bool :=
  if d.cmd.isRange then decide (d.folio + d.count ≤ Config.numFolios)
  else decide (d.folio = 0) && (d.cmd != .health || d.aux == 0 || d.aux == 1)

/-- Checks 4 to 7 of R21 in their order. -/
def Desc.check (d : Desc) : Option RejectReason :=
  if !d.flagsLegal then some .badFlags
  else if !d.tokenLegal then some .badToken
  else if !d.countLegal then some .badCount
  else if !d.rangeLegal then some .badRange
  else none

/-! ### Legality of the configuration registers -/

/-- EV_PENDING and EV_ENABLE: bits 31..9 are reserved (R149). -/
def legalEventBits (w : Word) : Bool := clearIn 0xFFFFFE00 w

/-- EV_LEVEL: bits 31..27 reserved, every field 0..6 (R149). -/
def legalEvLevel (w : Word) : Bool := clearIn 0xF8000000 w && (List.range 9).all fun i => decide (field w (3 * i) 3 ≤ 6)

/-- FAULT_PENDING: bits 7..4 and 31..26 reserved, f2_detail not checked (R150, R183). -/
def legalFaultPending (w : Word) : Bool := clearIn 0xFC0000F0 w

/-- COALESCE: T 1..8, bits 7..4 and 31..20 reserved, U not checked (R159, R183). -/
def legalCoalesce (w : Word) : Bool := clearIn 0xFFF000F0 w && decide (1 ≤ field w 0 4 ∧ field w 0 4 ≤ 8)

/-- CACHE_POLICY: high 1..32, low below high, bits 7..6, 15..14 and 31..17 reserved (R94). -/
def legalCachePolicy (w : Word) : Bool :=
  clearIn 0xFFFEC0C0 w && decide (1 ≤ field w 0 6 ∧ field w 0 6 ≤ 32 ∧ field w 8 6 < field w 0 6)

end Sys2Proof.Machine
end

