-- ==== Sys2Proof/Machine/Flags.lean ====
section
/-!
DEFINITION. The flags of the Notification Controller and what it computes from them: pending flags, eligibility and the
winner (R151), the freeze (R161), NOTIFYn and ALERTn (R152), the counting of completions (R158), and the recording of
rejects (R15).
-/

namespace Sys2Proof.Machine

/-! ### Pending flags -/

/-- The pending flag of a source (R148). -/
def Ntc.pendingEvent (n : Ntc) (e : Event) : Bool := n.evPending.getLsbD e.index

/-- The pending flag of a fault (R150). -/
def Ntc.pendingFault (n : Ntc) (f : FaultCode) : Bool := n.faults.getLsbD f.index

/-- Set the pending flag of a source (R148). -/
def setEvent (e : Event) (s : State) : State :=
  { s with ntc := { s.ntc with evPending := s.ntc.evPending ||| BitVec.twoPow 9 e.index } }

/-- Set the pending flag of a fault (R150). -/
def setFault (f : FaultCode) (s : State) : State :=
  { s with ntc := { s.ntc with faults := s.ntc.faults ||| BitVec.twoPow 4 f.index } }

/-! ### Eligibility and the winner -/

/-- The level of source `i` (Table 9-1). -/
def Ntc.levelOf (n : Ntc) (i : Nat) : Nat := (n.evLevel.extractLsb' (3 * i) 3).toNat

/-- A maskable source is eligible (R151). -/
def Ntc.eligible (n : Ntc) (i : Nat) : Bool :=
  n.evPending.getLsbD i && n.evEnable.getLsbD i && decide (0 < n.levelOf i)
    && !(n.quiet != 0 && decide (n.levelOf i ≤ 4))

/-- The winner of the arbitration: its source code and level, and whether it is maskable. -/
structure Winner where
  code : Nat
  level : Nat
  maskable : Bool
  deriving DecidableEq, Repr

/-- The eligible maskable source of highest level, of equal ones the lowest index (R151). -/
def Ntc.maskableWinner (n : Ntc) : Option Winner :=
  (List.range 9).foldl
    (fun best i =>
      if n.eligible i && (match best with | none => true | some b => decide (b.level < n.levelOf i)) then
        some { code := i, level := n.levelOf i, maskable := true }
      else best)
    none

/-- A fault as the winner. -/
def FaultCode.winner (f : FaultCode) : Winner := { code := f.code, level := f.level, maskable := false }

/-- The winner (R151): every fault's level is above every maskable level. -/
def Ntc.winner (n : Ntc) : Option Winner :=
  if n.pendingFault .f4 then some FaultCode.f4.winner
  else if n.pendingFault .f3 then some FaultCode.f3.winner
  else if n.pendingFault .f2 then some FaultCode.f2.winner
  else if n.pendingFault .f1 then some FaultCode.f1.winner
  else n.maskableWinner

/-- The winner when its level is above the current level (R151). -/
def Ntc.claimable (n : Ntc) : Option Winner :=
  match n.winner with
  | some w => if n.level < w.level then some w else none
  | none => none

/-- The current level a claim of `w` gives (R153, R156). -/
def Ntc.claimLevel (n : Ntc) (w : Winner) : Nat := if n.nestOff && w.maskable then 6 else w.level

/-! ### Faults in service, the freeze and the pins -/

/-- A fault is in service (R152). -/
def Ntc.inService (n : Ntc) (f : FaultCode) : Bool := n.level == f.level || n.stack.contains f.level

/-- A fault is pending or in service. -/
def Ntc.outstanding (n : Ntc) (f : FaultCode) : Bool := n.pendingFault f || n.inService f

/-- The hard fault of highest level that is pending or in service (R163). -/
def Ntc.highestHard (n : Ntc) : Option FaultCode :=
  if n.outstanding .f4 then some .f4
  else if n.outstanding .f3 then some .f3
  else if n.outstanding .f2 then some .f2
  else none

/-- The part is frozen: a hard fault is pending or in service (R161). -/
def Ntc.frozen (n : Ntc) : Bool := n.highestHard.isSome

/-- The part is frozen (R161). -/
def State.frozen (s : State) : Bool := s.ntc.frozen

/-- NOTIFYn is driven low (R152). -/
def State.notifyLow (s : State) : Bool := s.rst.nen && s.ntc.claimable.isSome

/-- ALERTn is driven low (R152). -/
def State.alertLow (s : State) : Bool := s.frozen

/-! ### Rejects -/

/-- The part is in RESET_HELD (R166). -/
def State.held (s : State) : Bool := s.rst.portReset

/-- Record a reject (R15); in RESET_HELD nothing is recorded (R14). -/
def reject (r : RejectReason) (target cmdCode : Byte) (s : State) : State :=
  if s.held then s
  else
    setEvent .reject
      { s with hpi := { s.hpi with
          log := { reason := some r, target := target, cmdCode := cmdCode, count := min 255 (s.hpi.log.count + 1) } } }

/-- Record a BAD_REGISTER_VALUE reject for the register at `addr` (R17). -/
def badValue (addr : Byte) (s : State) : State := reject .badRegisterValue addr 0 s

/-! ### Completion coalescing -/

/-- Announce the completions counted so far: CMPL pending, U 0, the timer stopped (R158). -/
def announce (s : State) : State :=
  let s := setEvent .cmpl s
  { s with ntc := { s.ntc with unannounced := 0, timer := none } }

/-- The timer after an ordinary completion: it starts when U was 0 and the timeout is not 0 (R158). -/
def Ntc.timerAfter (n : Ntc) : Option CoalesceTimer :=
  if n.unannounced = 0 then
    if n.timeout = 0 then none else some { elapsed := 0, limit := n.timeout.toNat }
  else n.timer

/-- Count one completion; `prompt` is a status other than OK or URGENT (R158). -/
def countCompletion (prompt : Bool) (s : State) : State :=
  if prompt || s.ntc.unannounced + 1 == s.ntc.threshold.toNat then announce s
  else { s with ntc := { s.ntc with unannounced := s.ntc.unannounced + 1, timer := s.ntc.timerAfter } }

end Sys2Proof.Machine
end

