-- ==== Sys2Proof/Machine/Ops.lean ====
section
/-!
DEFINITION. The named operations over slots, buffers and reservations: reading and writing a slot record, releasing a
buffer, ending a command with its completion record (R35), breaking and creating reservations (chapter 6), raising a
hard fault that does not collide (R160), and the evaluations that follow them (R30, R33, R47).
-/

namespace Sys2Proof.Machine

/-- Apply `f` to every entry of a vector. -/
def vecMap {α β : Type} {n : Nat} (f : α → β) (v : Vector α n) : Vector β n := ⟨⟨v.toList.map f⟩, by simp⟩

/-! ### Slots -/

/-- The record of slot `n`. -/
def State.slot (s : State) (n : Fin 8) : Slot := s.csq.slots[n]

/-- Replace the record of slot `n`. -/
def setSlot (n : Fin 8) (x : Slot) (s : State) : State :=
  { s with csq := { s.csq with slots := s.csq.slots.set n.val x n.isLt } }

/-- Change the record of slot `n` by `f`. -/
def modSlot (n : Fin 8) (f : Slot → Slot) (s : State) : State := setSlot n (f (s.slot n)) s

/-- Change every slot record by `f`. -/
def mapSlots (f : Slot → Slot) (s : State) : State :=
  { s with csq := { s.csq with slots := vecMap f s.csq.slots } }

/-- Set or clear the apply in progress. -/
def setApply (a : Option Apply) (s : State) : State := { s with csq := { s.csq with apply := a } }

/-- The slot states that are slot work (R166). -/
def SlotState.isWork : SlotState → Bool
  | .queued => true
  | .loading => true
  | .loaded => true
  | .applying => true
  | .settling => true
  | .unloading => true
  | .free => false
  | .done => false

/-- Slot work exists (R166). -/
def State.slotWork (s : State) : Bool := s.csq.slots.toList.any fun sl => sl.state.isWork

/-- The slots older than `n` in the run queue (R24). -/
def State.older (s : State) (n : Fin 8) : List (Fin 8) := s.csq.runQueue.takeWhile (· != n)

/-- The slots younger than `n` in the run queue (R24). -/
def State.younger (s : State) (n : Fin 8) : List (Fin 8) := (s.csq.runQueue.dropWhile (· != n)).drop 1

/-! ### Buffers -/

/-- Buffer `b`. -/
def State.buf (s : State) : BufId → Buffer
  | .tb0 => s.dp.tb0
  | .tb1 => s.dp.tb1

/-- Replace buffer `b`. -/
def setBuf (b : BufId) (x : Buffer) (s : State) : State :=
  match b with
  | .tb0 => { s with dp := { s.dp with tb0 := x } }
  | .tb1 => { s with dp := { s.dp with tb1 := x } }

/-- The buffer that slot `n` holds (R23). -/
def State.bufOf (s : State) (n : Fin 8) : Option BufId :=
  if s.dp.tb0.holder = some n then some .tb0
  else if s.dp.tb1.holder = some n then some .tb1
  else none

/-- The words in slot `n`'s buffer. -/
def State.wordsOf (s : State) (n : Fin 8) : List Word :=
  match s.bufOf n with
  | some b => (s.buf b).words
  | none => []

/-- The words of slot `n`'s OUT phase that have been consumed. -/
def State.consumedOf (s : State) (n : Fin 8) : Nat :=
  match s.bufOf n with
  | some b => (s.buf b).consumed
  | none => 0

/-- Folio position `i` of slot `n`'s buffer (R45). -/
def State.bufferFolio (s : State) (n : Fin 8) (i : Nat) : FolioData :=
  ((s.wordsOf n).drop (Config.folioWords * i)).take Config.folioWords

/-- Place the data of one more folio in slot `n`'s buffer (R45). -/
def placeFolio (n : Fin 8) (data : FolioData) (s : State) : State :=
  match s.bufOf n with
  | some b => setBuf b { s.buf b with words := (s.buf b).words ++ data } s
  | none => s

/-- Release slot `n`'s buffer, with its contents, and its ownership of the port (R34, R47). -/
def releaseBuffer (n : Fin 8) (s : State) : State :=
  let s := match s.bufOf n with
    | some b => setBuf b .empty s
    | none => s
  if s.dp.owner = some n then { s with dp := { s.dp with owner := none } } else s

/-- The words the phase of slot `n` still has to move (R46): `count × 256` for IN, 256 for each folio placed for OUT. -/
def State.wordsRemaining (s : State) (n : Fin 8) : Nat :=
  match (s.slot n).state with
  | .loading => (s.slot n).desc.count * Config.folioWords - (s.wordsOf n).length
  | .unloading => (s.wordsOf n).length - s.consumedOf n
  | _ => 0

/-- Slot `n` is eligible for the data port (R46). -/
def State.portEligible (s : State) (n : Fin 8) : Bool := decide (0 < s.wordsRemaining n)

/-! ### Completion -/

/-- The record that slot `n` leaves with a status and a folios_done (R36, R38); the detail of a PURGE that completes counts
the lines purged while it settled (R75). -/
def State.recordOf (s : State) (n : Fin 8) (status : Status) (foliosDone : Nat) : Completion :=
  let sl := s.slot n
  { slot := n, cmd := sl.desc.cmd, status := status, foliosDone := foliosDone
    flags := { sl.flags with abortLate := sl.lateAbort }
    detail := if status = .ok then sl.detail + BitVec.ofNat 32 sl.purged else sl.detail
    hostTag := sl.desc.hostTag }

/-- The end of slot `n`'s command (R35, steps 1 to 4): DONE, buffer released, record appended, completion counted. The
evaluations that follow in the same unit are made at the unit's end. -/
def completeSlot (n : Fin 8) (status : Status) (foliosDone : Nat) (s : State) : State :=
  let r := s.recordOf n status foliosDone
  let urgent := (s.slot n).desc.urgent
  let s := modSlot n (fun sl =>
    { sl with state := .done, status := status, foliosDone := foliosDone, flags := r.flags, detail := r.detail
              triples := [] }) s
  let s := releaseBuffer n s
  let s := match s.csq.apply with
    | some a => if a.slot = n then setApply none s else s
    | none => s
  let s := { s with csq := { s.csq with completions := s.csq.completions ++ [r] } }
  countCompletion (status != .ok || urgent) s

/-! ### Settling (R30) -/

/-- Some line carries slot `n`'s purge mark. -/
def State.hasMark (s : State) (n : Fin 8) : Bool := s.fc.lines.toList.any fun l => l.purgeMark == some n

/-- The settle condition of slot `n` (R73, R75, R76). -/
def State.settleMet (s : State) (n : Fin 8) : Bool :=
  match (s.slot n).desc.cmd with
  | .clean => (s.slot n).triples.isEmpty
  | .flush => (s.slot n).triples.isEmpty
  | .purge => !s.hasMark n
  | .sync => (s.older n).all fun m => (s.slot m).state == .done
  | _ => false

/-- Slot `n` enters DONE if it is SETTLING and its condition is met (R30). -/
def settleSlot (n : Fin 8) (s : State) : State :=
  if (s.slot n).state = .settling && s.settleMet n then completeSlot n .ok (s.slot n).foliosDone s else s

/-- Slot `n` is a SYNC. -/
def State.isSync (s : State) (n : Fin 8) : Bool := (s.slot n).desc.cmd == .sync

/-- Evaluate every settle condition (R30): those that one cause meets oldest slot first, and each SYNC after the records of
the slots that meet it (R35). -/
def settleSlots (s : State) : State :=
  let s := s.csq.runQueue.foldl (fun s n => if s.isSync n then s else settleSlot n s) s
  s.csq.runQueue.foldl (fun s n => if s.isSync n then settleSlot n s else s) s

/-- The end of an apply that enters DONE (R29): what its last step settled comes before its own record (R35). -/
def finishApply (n : Fin 8) (status : Status) (foliosDone : Nat) (s : State) : State :=
  completeSlot n status foliosDone (settleSlots s)

/-! ### Buffer assignment and the port owner -/

/-- The slot that R33 would give a free buffer: the oldest data-bearing slot that is QUEUED without one, unless a SLEEP
that is not DONE is older. -/
def State.nextForBuffer (s : State) : List (Fin 8) → Option (Fin 8)
  | [] => none
  | n :: rest =>
    let sl := s.slot n
    if sl.desc.cmd = .sleep && sl.state != .done then none
    else if sl.desc.cmd.isData && sl.state = .queued && (s.bufOf n).isNone then some n
    else s.nextForBuffer rest

/-- The free buffer to give, TB0 first (R33). -/
def State.freeBuffer (s : State) : Option BufId :=
  if s.dp.tb0.holder.isNone then some .tb0
  else if s.dp.tb1.holder.isNone then some .tb1
  else none

/-- Give one free buffer (R33); a WRITE becomes LOADING. None is given during a mount or in a reset (R32, R33). -/
def assignOne (s : State) : State :=
  if s.mount.isSome || s.held || s.rst.inReset.isSome then s
  else
    match s.freeBuffer, s.nextForBuffer s.csq.runQueue with
    | some b, some n =>
      let s := setBuf b { holder := some n, words := [], consumed := 0 } s
      if (s.slot n).desc.cmd = .write then modSlot n (fun sl => { sl with state := .loading }) s else s
    | _, _ => s

/-- Buffer assignment (R33): repeated while a buffer is free and a slot waits; there are two buffers. -/
def assignBuffers (s : State) : State := assignOne (assignOne s)

/-- The choice of the port owner (R47): the oldest eligible slot, unless the port has an owner or F4 is pending. -/
def chooseOwner (s : State) : State :=
  if s.dp.owner.isSome || s.ntc.pendingFault .f4 then s
  else
    match s.csq.runQueue.find? s.portEligible with
    | some n => setEvent .data { s with dp := { s.dp with owner := some n } }
    | none => s

/-! ### Reservations (chapter 6) -/

/-- The entry overlaps folios `start` to `start + count - 1` (R106). -/
def Rsv.overlaps (r : Rsv) (start count : Nat) : Bool :=
  decide (r.start < start + count ∧ start < r.start + r.length)

/-- The entry satisfies a conditional WRITE (R105). -/
def Rsv.satisfies (r : Rsv) (token : Byte) (start count : Nat) : Bool :=
  r.token == token && decide (r.start ≤ start ∧ start + count ≤ r.start + r.length)

/-- Break every entry that `p` selects, oldest first (R106): RSV_LOST ends holding the youngest of them. -/
def breakWhere (p : Rsv → Bool) (cause : BreakCause) (s : State) : State :=
  match (s.rvt.entries.filter p).getLast? with
  | none => s
  | some last =>
    setEvent .rsvLost
      { s with rvt := { entries := s.rvt.entries.filter fun r => !p r
                        lost := some { cause := cause, token := last.token } } }

/-- Break every entry (R106). -/
def breakAll (cause : BreakCause) (s : State) : State := breakWhere (fun _ => true) cause s

/-- Consume the entry that satisfied a conditional WRITE (R105). -/
def consumeRsv (token : Byte) (start count : Nat) (s : State) : State :=
  { s with rvt := { s.rvt with entries := s.rvt.entries.eraseP fun r => r.satisfies token start count } }

/-- Create an entry (R104): silent replacement of an entry with the token; otherwise eviction of the oldest from a full list. -/
def createRsv (r : Rsv) (s : State) : State :=
  let known := s.rvt.entries.any fun e => e.token == r.token
  let s :=
    if known then { s with rvt := { s.rvt with entries := s.rvt.entries.filter fun e => e.token != r.token } }
    else
      match s.rvt.entries with
      | [] => s
      | oldest :: rest =>
        if s.rvt.entries.length < Config.rvtEntries then s
        else
          setEvent .rsvLost
            { s with rvt := { entries := rest, lost := some { cause := .evicted, token := oldest.token } } }
  { s with rvt := { s.rvt with entries := s.rvt.entries ++ [r] } }

/-! ### Hard faults -/

/-- Raise a hard fault that does not collide (R160): pending, and every reservation broken with cause FAULT. The freeze and
the pins follow from the flags. F4 never collides (R163). -/
def raiseFault (f : FaultCode) (s : State) : State := breakAll .fault (setFault f s)

end Sys2Proof.Machine
end

