-- ==== Sys2Proof/Machine/Sparse.lean ====
section
/-!
DEFINITION. Sparse tables keyed by a number: lists of (key, value) pairs in one canonical form, keys strictly rising.
The flash, the map and the group table are kept so; an unlisted key reads as the table's own default.
-/

namespace Sys2Proof.Machine

/-- The value listed at `k`. -/
def sparseGet {α : Type} (k : Nat) : List (Nat × α) → Option α
  | [] => none
  | (j, v) :: rest => if j = k then some v else sparseGet k rest

/-- List `v` at `k`, in place of what was listed there. -/
def sparsePut {α : Type} (k : Nat) (v : α) : List (Nat × α) → List (Nat × α)
  | [] => [(k, v)]
  | (j, w) :: rest =>
    if k < j then (k, v) :: (j, w) :: rest
    else if k = j then (k, v) :: rest
    else (j, w) :: sparsePut k v rest

/-- Take `k` off the list. -/
def sparseDrop {α : Type} (k : Nat) (l : List (Nat × α)) : List (Nat × α) := l.filter fun p => p.1 != k

/-- The canonical form: keys strictly rising. -/
def sparseWf {α : Type} : List (Nat × α) → Bool
  | [] => true
  | [_] => true
  | (j, _) :: (k, w) :: rest => decide (j < k) && sparseWf ((k, w) :: rest)

/-- The smallest number from `k` up that is not listed, for a table in canonical form. -/
def sparseGap {α : Type} : Nat → List (Nat × α) → Nat
  | k, [] => k
  | k, (j, _) :: rest => if j = k then sparseGap (k + 1) rest else if j < k then sparseGap k rest else k

end Sys2Proof.Machine
end

