-- ==== Sys2Proof/Machine/Media.lean ====
section
/-!
DEFINITION. The Media Manager (chapter 7): the map and the map rule, validity, groups, open groups, the reserve and its
thresholds, failures, reclaim's and relocation's next operations, and the sequence counter.
-/

namespace Sys2Proof.Machine

/-! ### The map (R116 to R119) -/

/-- The entry of folio `f`. -/
def FolioMap.entry (m : FolioMap) (f : Nat) : MapEntry := (sparseGet f m.items).getD m.unlisted

/-- Set the entry of folio `f`, keeping the canonical form. -/
def FolioMap.put (m : FolioMap) (f : Nat) (e : MapEntry) : FolioMap :=
  if e = m.unlisted then { m with items := sparseDrop f m.items } else { m with items := sparsePut f e m.items }

/-- The canonical form of the map: listed folios ascending, none with the unlisted entry. -/
def FolioMap.wf (m : FolioMap) : Bool := sparseWf m.items && m.items.all fun p => p.2 != m.unlisted

/-- The map with every folio at `e`. -/
def FolioMap.constant (e : MapEntry) : FolioMap := { unlisted := e, items := [] }

/-- The entry whose target is `src` takes `dst` (R118). -/
def MapEntry.moved (src dst : Loc) (e : MapEntry) : MapEntry :=
  if e.target = some src then { e with target := some dst } else e

/-- Every entry whose target is `src` takes `dst` as its target (R118). -/
def FolioMap.moveTarget (m : FolioMap) (src dst : Loc) : FolioMap :=
  let u := m.unlisted.moved src dst
  { unlisted := u
    items := (m.items.map fun p => (p.1, p.2.moved src dst)).filter fun p => p.2 != u }

/-- Some entry has the location as its target (R116). -/
def FolioMap.targets (m : FolioMap) (loc : Loc) : Bool :=
  (decide (m.items.length < Config.numFolios) && m.unlisted.target == some loc)
    || m.items.any fun p => p.2.target == some loc

/-- The map entry of folio `f`. -/
def State.mapEntry (s : State) (f : Nat) : MapEntry := s.mm.map.entry f

/-- Set the map entry of folio `f`. -/
def putEntry (f : Nat) (e : MapEntry) (s : State) : State := { s with mm := { s.mm with map := s.mm.map.put f e } }

/-- The map rule (R117): an offer is accepted only if its sequence is higher than the entry's. -/
def State.offerAccepted (s : State) (f : Nat) (seq : Word) : Bool := decide ((s.mapEntry f).seq.toNat < seq.toNat)

/-- Offer a programmed DATA or DATA_TENTATIVE folio to the map (R117). -/
def offerData (f : Nat) (seq : Word) (loc : Loc) (s : State) : State :=
  if s.offerAccepted f seq then putEntry f { state := .mapped, target := some loc, seq := seq } s else s

/-- The programmed position at a location. -/
def State.cell (s : State) (loc : Loc) : Option Cell := sparseGet loc s.mm.flash

/-- Set poison on folio `f` and break the reservations that cover it (R119, R109); an entry already POISONED does not
change. -/
def poisonFolio (f : Nat) (s : State) : State :=
  let e := s.mapEntry f
  if e.state = .poisoned then s
  else breakWhere (fun r => r.overlaps f 1) .media (putEntry f { e with state := .poisoned } s)

/-- The state that an entry takes when a cached WRITE clears its poison (R119). -/
def State.unpoisoned (s : State) (e : MapEntry) : MapState :=
  match e.target with
  | none => .never
  | some loc =>
    match s.cell loc with
    | some c => if c.metadata.kind = .trimNote then .trimmed else .mapped
    | none => .mapped

/-- A cached WRITE clears the poison of its folio (R65 step 5, R119). -/
def clearPoison (f : Nat) (s : State) : State :=
  let e := s.mapEntry f
  if e.state = .poisoned then putEntry f { e with state := s.unpoisoned e } s else s

/-- An uncorrectable read of a location poisons the folio whose current target it is (R119, R126). -/
def poisonTarget (loc : Loc) (s : State) : State :=
  match s.cell loc with
  | some c =>
    let e := s.mapEntry c.metadata.start
    if e.target = some loc && e.state = .mapped then poisonFolio c.metadata.start s else s
  | none => s

/-! ### The sequence counter (R115) -/

/-- Give `n` sequences. -/
def takeSeq (n : Nat) (s : State) : State := { s with mm := { s.mm with seq := s.mm.seq + BitVec.ofNat 32 n } }

/-! ### Groups (R120, R121) -/

/-- The record of group `g`. -/
def State.group (s : State) (g : Nat) : Group := (sparseGet g s.mm.groups).getD Group.fresh

/-- Set the record of group `g`, keeping the canonical form. -/
def putGroup (g : Nat) (x : Group) (s : State) : State :=
  { s with mm := { s.mm with
      groups := if x = Group.fresh then sparseDrop g s.mm.groups else sparsePut g x s.mm.groups } }

/-- The group of a location (R113). -/
def groupOf (loc : Loc) : Nat := loc / Config.groupFolios

/-- The groups in a state, among those listed (an unlisted group is FREE). -/
def State.groupsIn (s : State) (st : GroupState) : List Nat :=
  (s.mm.groups.filter fun p => p.2.state == st).map fun p => p.1

/-- The free count (R120): the groups that are not FREE are listed. -/
def State.freeCount (s : State) : Nat :=
  Config.numGroups - (s.mm.groups.filter fun p => p.2.state != .free).length

/-- The reserve (R133); it is not below 0. -/
def State.reserve (s : State) : Nat :=
  Config.numGroups - (s.groupsIn .retired).length - (s.groupsIn .retiring).length - Config.groupsNeeded

/-- The better of two candidates by a lexicographic rank, the first where they are equal. -/
def leastBy {α : Type} (rank : α → List Nat) : List α → Option α
  | [] => none
  | x :: rest =>
    match leastBy rank rest with
    | none => some x
    | some y => if rank y < rank x then some y else some x

/-- The FREE group with the lowest erase count, and among those the lowest number (R121). -/
def State.freeGroup (s : State) : Option Nat :=
  let listed := (s.mm.groups.filter fun p => p.2.state == .free).map fun p => (p.1, p.2.erases)
  let gap := sparseGap 0 s.mm.groups
  let all := if gap < Config.numGroups then (gap, 0) :: listed else listed
  (leastBy (fun p => [p.2, p.1]) all).map fun p => p.1

/-- Take FREE group `g` as an open group (R120). -/
def openGroup (g : Nat) (s : State) : State := putGroup g { s.group g with state := .opened } s

/-- The reclaim open group is taken whenever a FREE group exists (R121). -/
def takeReclaimOpen (s : State) : State :=
  if s.mm.reclaimOpen.isNone && decide (1 ≤ s.freeCount) then
    match s.freeGroup with
    | some g => openGroup g { s with mm := { s.mm with reclaimOpen := some g } }
    | none => s
  else s

/-- The host open group is taken only while at least two FREE groups exist (R121). -/
def takeHostOpen (s : State) : State :=
  if s.mm.hostOpen.isNone && decide (2 ≤ s.freeCount) then
    match s.freeGroup with
    | some g => openGroup g { s with mm := { s.mm with hostOpen := some g } }
    | none => s
  else s

/-- A group leaves its role as an open group (R121). -/
def vacateRole (g : Nat) (s : State) : State :=
  { s with mm := { s.mm with
      hostOpen := if s.mm.hostOpen = some g then none else s.mm.hostOpen
      reclaimOpen := if s.mm.reclaimOpen = some g then none else s.mm.reclaimOpen } }

/-- The next free position of open group `g`. -/
def State.nextLoc (s : State) (g : Nat) : Loc := g * Config.groupFolios + (s.group g).nextFree

/-- The position of a program is programmed or used up: the next free position moves past it, and an OPEN group whose last
position it was becomes FULL and leaves its role (R113, R120). -/
def advancePosition (loc : Loc) (s : State) : State :=
  let g := groupOf loc
  let x := { s.group g with nextFree := loc % Config.groupFolios + 1 }
  if x.nextFree = Config.groupFolios && x.state = .opened then vacateRole g (putGroup g { x with state := .full } s)
  else putGroup g x s

/-- Write a position of the flash (R113). -/
def putCell (loc : Loc) (p : Prog) (complete : Bool) (s : State) : State :=
  { s with mm := { s.mm with
      flash := sparsePut loc { metadata := p.metadata, data := p.data, complete := complete, rotten := p.rotten }
        s.mm.flash } }

/-- Take the operation in progress off the port. -/
def clearPort (s : State) : State := { s with mm := { s.mm with port := none } }

/-- A program completed at the port: its folio stands with its completion mark, and the port is free. -/
def landProgram (loc : Loc) (p : Prog) (s : State) : State := advancePosition loc (putCell loc p true (clearPort s))

/-- A program ended at the port without its completion mark (R178): the position is torn and used up. -/
def tearProgram (loc : Loc) (p : Prog) (s : State) : State := advancePosition loc (putCell loc p false (clearPort s))

/-! ### Validity (R122) -/

/-- A tentative member of the commit note is a current target. -/
def State.noteLive (s : State) (n : CommitNote) : Bool :=
  s.mm.flash.any fun p =>
    p.2.complete && p.2.metadata.kind == .tentative && p.2.metadata.base == n.base && s.mm.map.targets p.1

/-- The location holds a pending folio of the atomic WRITE in progress. -/
def State.pendingLoc (s : State) (loc : Loc) : Bool :=
  match s.csq.apply with
  | some a => a.pendingLocs.contains loc
  | none => false

/-- A physical folio is valid (R122). -/
def State.validLoc (s : State) (loc : Loc) : Bool :=
  s.mm.map.targets loc || s.pendingLoc loc || s.mm.commitNotes.any fun n => n.loc == loc && s.noteLive n

/-- The locations of group `g` that hold a folio, ascending. -/
def State.locsOf (s : State) (g : Nat) : List Loc := (s.mm.flash.filter fun p => groupOf p.1 == g).map fun p => p.1

/-- The number of valid folios of group `g` (R122). -/
def State.validCount (s : State) (g : Nat) : Nat := ((s.locsOf g).filter s.validLoc).length

/-- The records of commit notes that have died are forgotten (R122). -/
def pruneNotes (s : State) : State :=
  { s with mm := { s.mm with commitNotes := s.mm.commitNotes.filter s.noteLive } }

/-! ### The reserve, retirement and failures (R129 to R134) -/

/-- The thresholds, evaluated in a unit in which the reserve falls (R133, R134); a further group that leaves good use is such
a fall although the reserve stands at 0 already (log 41). -/
def reserveFell (s : State) : State :=
  let s := if s.reserve ≤ Config.spareThreshold then setEvent .spare s else s
  if s.reserve ≤ Config.readOnlyThreshold && !s.mm.readOnly then
    setEvent .rdOnly { s with mm := { s.mm with readOnly := true } }
  else s

/-- A group joins the defect list, unless the list is full (R132). -/
def addDefect (g : Nat) (o : Origin) (s : State) : State :=
  if s.mm.defects.length < Config.defectCapacity then
    { s with mm := { s.mm with defects := s.mm.defects ++ [{ group := g, origin := o }] } }
  else s

/-- Group `g` becomes RETIRED with an origin: the record region, the defect list and MEDIA (R114, R120, R132). -/
def retireGroup (g : Nat) (o : Origin) (s : State) : State :=
  setEvent .media
    (addDefect g o (putGroup g { s.group g with state := .retired, origin := some o, erasing := false } s))

/-- Group `g` becomes RETIRING with an origin; it leaves its role and the reserve falls (R120, R129, R133). -/
def retiringGroup (g : Nat) (o : Origin) (s : State) : State :=
  reserveFell (setEvent .media (vacateRole g (putGroup g { s.group g with state := .retiring, origin := some o } s)))

/-- A program failed or was abandoned (R129, R131): the position is used up and its group is RETIRING. The requester still
wants the same program, with the same sequence, so the retry waits at the port. -/
def failProgram (o : Origin) (loc : Loc) (p : Prog) (s : State) : State :=
  let g := groupOf loc
  let s := putCell loc p false (clearPort s)
  let s := putGroup g { s.group g with nextFree := loc % Config.groupFolios + 1 } s
  retiringGroup g o s

/-- Reclaim ends its victim: it holds none, and the relocation queue loses the victim's locations (R125 step 3). -/
def endVictim (g : Nat) (s : State) : State :=
  { s with mm := { s.mm with victim := none, relocQueue := s.mm.relocQueue.filter fun l => groupOf l != g } }

/-- A successful erase: the group is FREE, its erase count one higher, its positions erased (R120, R125). -/
def eraseGroup (g : Nat) (s : State) : State :=
  let s := { s with mm := { s.mm with flash := s.mm.flash.filter fun p => groupOf p.1 != g } }
  putGroup g { Group.fresh with erases := (s.group g).erases + 1 } s

/-! ### Health counters (R79) -/

/-- A counter stays at its greatest value once it reaches it (R79). -/
def saturating (w : Word) (n : Nat) : Word := BitVec.ofNat 32 (min (w.toNat + n) 4294967295)

/-- Change the HEALTH counters. -/
def modHealth (f : Health → Health) (s : State) : State := { s with mm := { s.mm with health := f s.mm.health } }

/-- Count a folio read when its result is known (R79, R126). -/
def countRead (r : ReadResult) (s : State) : State :=
  match r with
  | .clean => s
  | .corrected bits =>
    modHealth (fun h => { h with correctedReads := saturating h.correctedReads 1
                                 correctedBits := saturating h.correctedBits bits }) s
  | .uncorrectable => modHealth (fun h => { h with uncorrectableReads := saturating h.uncorrectableReads 1 }) s

/-! ### Relocation queue (R127) -/

/-- Offer a location to the relocation queue. -/
def offerRelocation (loc : Loc) (s : State) : State :=
  if s.mm.relocQueue.contains loc || decide (Config.relocationCapacity ≤ s.mm.relocQueue.length) then
    modHealth (fun h => { h with relocationsDropped := saturating h.relocationsDropped 1 }) s
  else { s with mm := { s.mm with relocQueue := s.mm.relocQueue ++ [loc] } }

/-! ### Reclaim (R123 to R125) -/

/-- Reclaim's priority (R123): inactive, background or foreground. -/
inductive ReclaimPriority where
  | inactive
  | background
  | foreground
  deriving DecidableEq, Repr

/-- Reclaim's priority (R123). -/
def State.reclaimPriority (s : State) : ReclaimPriority :=
  if s.freeCount < Config.reclaimForeground then .foreground
  else if s.mm.reclaimFill || !(s.groupsIn .retiring).isEmpty then .background
  else .inactive

/-- Foreground reclaim is active (R60, R123). -/
def State.foreground (s : State) : Bool := s.reclaimPriority == .foreground

/-- Evaluate reclaim's activity (R123): it begins below 12 FREE groups and lasts until 16. -/
def evalReclaim (s : State) : State :=
  { s with mm := { s.mm with
      reclaimFill := decide (s.freeCount < Config.reclaimStart)
        || (s.mm.reclaimFill && decide (s.freeCount < Config.reclaimStop)) } }

/-- The group holds a pending folio of an atomic WRITE in progress (R124). -/
def State.holdsPending (s : State) (g : Nat) : Bool :=
  match s.csq.apply with
  | some a => a.pendingLocs.any fun l => groupOf l == g
  | none => false

/-- A DATA_TENTATIVE folio of the group is a current target (R124). -/
def State.holdsTentativeTarget (s : State) (g : Nat) : Bool :=
  s.mm.flash.any fun p =>
    groupOf p.1 == g && p.2.complete && p.2.metadata.kind == .tentative && s.mm.map.targets p.1

/-- A FULL group qualifies as a victim (R124). -/
def State.fullQualifies (s : State) (g : Nat) : Bool :=
  !s.holdsPending g && (decide (s.validCount g < Config.groupFolios) || s.holdsTentativeTarget g)

/-- The victim that R124 chooses. -/
def State.pickVictim (s : State) : Option Nat :=
  match (s.groupsIn .retiring).filter fun g => !s.holdsPending g with
  | g :: _ => some g
  | [] =>
    leastBy (fun g => [s.validCount g, (s.group g).erases, g]) ((s.groupsIn .full).filter s.fullQualifies)

/-- The first valid position of group `g` from `pos` up (R125 step 1). -/
def State.nextValidPos (s : State) (g pos : Nat) : Option Nat :=
  ((s.locsOf g).filter fun l => decide (pos ≤ l % Config.groupFolios) && s.validLoc l).head?.map
    fun l => l % Config.groupFolios

/-- The next position of a victim to copy (R125): the first valid one from the position reached on; and when every position
has been examined, the first one of the group that is valid all the same, since step 2 ends a victim only when none is. Such a
folio is a trim note that was passed over before its unmapping step made it live (log 26). -/
def State.nextCopyPos (s : State) (v : Victim) : Option Nat :=
  (s.nextValidPos v.group v.pos).or (s.nextValidPos v.group 0)

/-- What is programmed for the copy of a folio (R125 step 1): copy_mark 1, and a tentative current target as DATA. -/
def Cell.copyProg (c : Cell) (rotten : Bool) : Prog :=
  { metadata := { c.metadata with
      copyMark := true, kind := if c.metadata.kind = .tentative then .data else c.metadata.kind }
    data := c.data, rotten := rotten }

/-- Reclaim skips the positions that are no longer valid, and ends a victim that holds no valid folio where no erase is
due: RETIRING, or an erase count at the endurance limit (R125 step 2). -/
def reclaimProgress (s : State) : State :=
  match s.mm.victim with
  | none => s
  | some v =>
    if v.copy.isSome then s
    else
      match s.nextCopyPos v with
      | some p => { s with mm := { s.mm with victim := some { v with pos := p } } }
      | none =>
        let g := s.group v.group
        if g.state = .retiring then endVictim v.group (retireGroup v.group (g.origin.getD .programFail) s)
        else if Config.enduranceLimit ≤ g.erases then
          reserveFell (endVictim v.group (retireGroup v.group .wear s))
        else { s with mm := { s.mm with victim := some { v with pos := Config.groupFolios } } }

/-- The erase of reclaim's victim failed or was abandoned (R130). -/
def failErase (g : Nat) (o : Origin) (s : State) : State :=
  reserveFell (endVictim g (retireGroup g o (clearPort s)))

/-- A copy landed at `dst`: every entry whose target is the source takes it, and the record of a live commit note moves with
its note (R118). -/
def landCopy (src dst : Loc) (s : State) : State :=
  { s with mm := { s.mm with
      map := s.mm.map.moveTarget src dst
      commitNotes := s.mm.commitNotes.map fun n => if n.loc = src then { n with loc := dst } else n } }

end Sys2Proof.Machine
end

