-- ==== Sys2Proof/Machine/Lines.lean ====
section
/-!
DEFINITION. The folio cache and the Writeback Engine (chapter 5): lines, allocation, the dirty list, purge marks, the
triples of CLEAN and FLUSH, the triggers of R90, and the settlement of a ticket (R93).
-/

namespace Sys2Proof.Machine

/-! ### Lines -/

/-- The record of line `l`. -/
def State.line (s : State) (l : Fin 32) : Line := s.fc.lines[l]

/-- Replace the record of line `l`. -/
def setLine (l : Fin 32) (x : Line) (s : State) : State :=
  { s with fc := { s.fc with lines := s.fc.lines.set l.val x l.isLt } }

/-- The line that holds folio `f` (R84): at most one does. -/
def State.findLine (s : State) (f : Nat) : Option (Fin 32) :=
  (List.finRange 32).find? fun l => (s.line l).state != .invalid && (s.line l).folio == f

/-- The lines that hold a folio of `start` to `start + count - 1`, in line number order. -/
def State.linesIn (s : State) (start count : Nat) : List (Fin 32) :=
  (List.finRange 32).filter fun l =>
    (s.line l).state != .invalid && decide (start ≤ (s.line l).folio ∧ (s.line l).folio < start + count)

/-- The DIRTY lines, in line number order. -/
def State.dirtyLines (s : State) : List (Fin 32) := (List.finRange 32).filter fun l => (s.line l).state == .dirty

/-- The dirty count (R90). -/
def State.dirtyCount (s : State) : Nat := s.dirtyLines.length

/-- The number of lines that are not INVALID (R95). -/
def State.validLines (s : State) : Nat := ((List.finRange 32).filter fun l => (s.line l).state != .invalid).length

/-- Allocation (R88): the INVALID line with the lowest number, otherwise the least recently used CLEAN line. -/
def State.allocLine (s : State) : Option (Fin 32) :=
  match (List.finRange 32).find? fun l => (s.line l).state == .invalid with
  | some l => some l
  | none => s.fc.lru.find? fun l => (s.line l).state == .clean

/-- The line becomes the most recently used (R87). -/
def touch (l : Fin 32) (s : State) : State := { s with fc := { s.fc with lru := s.fc.lru.erase l ++ [l] } }

/-- The line leaves the dirty list (R89). -/
def unlist (l : Fin 32) (s : State) : State := { s with fc := { s.fc with dirtyList := s.fc.dirtyList.erase l } }

/-- The line joins the tail of the dirty list, if it is not on it (R89). -/
def enlist (l : Fin 32) (s : State) : State :=
  if s.fc.dirtyList.contains l then s else { s with fc := { s.fc with dirtyList := s.fc.dirtyList ++ [l] } }

/-- `a` is a later version than `b` (R86): fewer than 2^31 increments lead from `b` to `a`, and at least one. -/
def versionLater (a b : Word) : Bool := decide (0 < (a - b).toNat ∧ (a - b).toNat < 2147483648)

/-- Satisfy the triples that `p` selects, in every slot (R73). -/
def satisfyTriples (p : Triple → Bool) (s : State) : State :=
  mapSlots (fun sl => { sl with triples := sl.triples.filter fun t => !p t }) s

/-- The PURGE that owns a mark is given PURGE_PARTIAL (R75). -/
def givePartial (mark : Option (Fin 8)) (s : State) : State :=
  match mark with
  | some n => modSlot n (fun sl => { sl with flags := { sl.flags with purgePartial := true } }) s
  | none => s

/-- The line becomes INVALID (R85): it leaves the dirty list, its purge mark is removed without PURGE_PARTIAL, and the triples
recorded for it are satisfied (R73). -/
def invalidate (l : Fin 32) (s : State) : State :=
  satisfyTriples (fun t => t.line == l)
    (unlist l (setLine l { s.line l with state := .invalid, purgeMark := none, data := [] } s))

/-- Every line of a list becomes INVALID. -/
def invalidateAll (ls : List (Fin 32)) (s : State) : State := ls.foldl (fun s l => invalidate l s) s

/-- A cached WRITE writes line `l`, which holds folio `f` or has been allocated to it (R65 steps 2 to 5). -/
def writeDirty (l : Fin 32) (f : Nat) (data : FolioData) (s : State) : State :=
  let ln := s.line l
  let s := givePartial ln.purgeMark s
  let s := setLine l { ln with state := .dirty, folio := f, version := ln.version + 1, purgeMark := none, data := data } s
  clearPoison f (touch l (enlist l s))

/-- The cache update of line `l` by a write-through or atomic WRITE (R67 step 4): CLEAN at the next version, off the dirty
list, with the triples of an earlier version satisfied (R73). It does not move the line in the last-use order. -/
def writeClean (l : Fin 32) (f : Nat) (data : FolioData) (s : State) : State :=
  let ln := s.line l
  let v := ln.version + 1
  let s := givePartial ln.purgeMark s
  let s := setLine l { ln with state := .clean, folio := f, version := v, purgeMark := none, data := data } s
  satisfyTriples (fun t => t.line == l && t.folio == f && versionLater v t.version) (unlist l s)

/-- The cache update of R67 steps 3 and 4: the line that holds the folio, otherwise one that can be allocated at once;
without one the folio is not cached. -/
def cacheUpdate (f : Nat) (data : FolioData) (s : State) : State :=
  match s.findLine f with
  | some l => touch l (writeClean l f data s)
  | none =>
    match s.allocLine with
    | some l => touch l (writeClean l f data s)
    | none => s

/-- Line `l` is allocated in FILLING for folio `f` (R88). -/
def allocFilling (l : Fin 32) (f : Nat) (s : State) : State :=
  setLine l { s.line l with
    state := .filling, folio := f, version := (s.line l).version + 1, purgeMark := none, data := [] } s

/-- A fill's data enters its line: CLEAN and the most recently used (R88). -/
def fillLine (l : Fin 32) (data : FolioData) (s : State) : State :=
  touch l (setLine l { s.line l with state := .clean, data := data } s)

/-! ### Line integrity (R98, R99) -/

/-- The check of a CLEAN line finds an error (R98). -/
def cleanLineError (l : Fin 32) (s : State) : State := raiseFault .f4 (invalidate l s)

/-- The line's ticket in flight is voided (R99 step 2): a ticket captured from the folio that the line holds (log 10). -/
def voidTicket (l : Fin 32) (s : State) : State :=
  match s.fc.ticket with
  | some t =>
    if t.line = l && t.folio = (s.line l).folio then setLine l { s.line l with voidTicket := true } s else s
  | none => s

/-- The check of a DIRTY line finds an error (R99): the line is lost, its ticket voided, its folio poisoned, F4 raised. -/
def dirtyLineError (l : Fin 32) (s : State) : State :=
  let f := (s.line l).folio
  raiseFault .f4 (poisonFolio f (voidTicket l (invalidate l s)))

/-! ### The Writeback Engine -/

/-- A CLEAN, FLUSH or PURGE is SETTLING (R90). -/
def State.settlingWork (s : State) : Bool :=
  s.csq.slots.toList.any fun sl =>
    sl.state == .settling && (sl.desc.cmd == .clean || sl.desc.cmd == .flush || sl.desc.cmd == .purge)

/-- A SLEEP is APPLYING, or a cached WRITE step waits for a line (R90). -/
def State.applyDrains (s : State) : Bool :=
  match s.csq.apply with
  | some a => a.kind == .sleep || a.wait == .forLine
  | none => false

/-- At least one trigger of R90 holds: the WBE runs. -/
def State.wbeRuns (s : State) : Bool := s.fc.draining || s.settlingWork || s.applyDrains || s.pwr.intent

/-- The draining indication (R90). -/
def evalDraining (s : State) : State :=
  { s with fc := { s.fc with
      draining := decide (s.fc.high.toNat < s.dirtyCount) || (s.fc.draining && decide (s.fc.low.toNat < s.dirtyCount)) } }

/-- What the MM programs for a ticket (R92). -/
def Ticket.prog (t : Ticket) : Prog :=
  { metadata := { kind := .data, start := t.folio, count := 0, seq := t.seq, copyMark := false, base := 0 }
    data := t.data, rotten := false }

/-- A line that holds the ticket's folio CLEAN at another version is stale (R93 step 2). -/
def dropStale (t : Ticket) (s : State) : State :=
  match s.findLine t.folio with
  | some l => if (s.line l).state = .clean && (s.line l).version != t.version then invalidate l s else s
  | none => s

/-- A line is dropped for the PURGE that marked it, which counts it (R75). -/
def purgeLine (l : Fin 32) (s : State) : State :=
  match (s.line l).purgeMark with
  | some n => modSlot n (fun sl => { sl with purged := sl.purged + 1 }) (invalidate l s)
  | none => s

/-- The ticket's own line (R93 step 3). -/
def settleOwnLine (t : Ticket) (s : State) : State :=
  let ln := s.line t.line
  if ln.folio = t.folio && ln.state = .dirty && ln.version = t.version then
    if ln.purgeMark.isSome then purgeLine t.line s
    else setLine t.line { ln with state := .clean } s
  else s

/-- The triples that a writeback satisfies (R73). -/
def Ticket.satisfies (t : Ticket) (r : Triple) : Bool :=
  r.line == t.line && r.folio == t.folio && (t.version == r.version || versionLater t.version r.version)

/-- The completion of a ticket whose program landed at `loc` (R93 steps 1 to 4, and the ticket's end of step 5). -/
def settleTicket (t : Ticket) (loc : Loc) (s : State) : State :=
  let s :=
    if (s.line t.line).voidTicket then s
    else
      let accepted := s.offerAccepted t.folio t.seq
      let s := offerData t.folio t.seq loc s
      settleOwnLine t (if accepted then dropStale t s else s)
  let s := satisfyTriples t.satisfies s
  { s with fc := { s.fc with ticket := none } }

end Sys2Proof.Machine
end

