-- ==== Sys2Proof/Machine/Power.lean ====
section
/-!
DEFINITION. The Power Manager (chapter 10): engine work, the power state, the wake causes, the end of WAKING, the media's
power-down in SLEEP and the tick's own condition.
-/

namespace Sys2Proof.Machine

/-- Engine work exists (R166). -/
def State.engineWork (s : State) : Bool :=
  s.mm.port.isSome
    || (match s.csq.apply with
        | some a => (match a.wait with
          | .forMedia _ => true
          | .between => false
          | .forLine => false
          | .forReclaim => false
          | .forSleep => false)
        | none => false)
    || s.fc.ticket.isSome || (s.wbeRuns && !s.fc.dirtyList.isEmpty)
    || s.mm.victim.isSome || (s.reclaimPriority != .inactive && s.pickVictim.isSome)
    || !s.mm.relocQueue.isEmpty || s.mm.relocCopy.isSome

/-- The power state that R166 gives. DOZE, SLEEP and WAKING last until the event that ends them. While a POR or PIN reset is
in progress the port shows no state (log 4). -/
def State.powerOf (s : State) : PowerState :=
  if s.rst.portReset || s.rst.inReset.isSome then .resetHeld
  else if s.mount.isSome then .mounting
  else
    match s.pwr.state with
    | .sleep => .sleep
    | .doze => .doze
    | .waking => .waking
    | .resetHeld | .mounting | .active | .idle => if s.slotWork || s.engineWork then .active else .idle

/-- The power state is re-evaluated (R166); leaving IDLE sets the idle timer to 0 (R167). -/
def evalPower (s : State) : State :=
  let p := s.powerOf
  { s with pwr := { s.pwr with
      state := p
      idleTimer := if s.pwr.state = .idle && p != .idle then 0 else s.pwr.idleTimer } }

/-- A wake cause (R171). It acts in DOZE and SLEEP: the media power-up begins, unless the media has not been powered down yet. -/
def wakeCause (s : State) : State :=
  if s.pwr.state = .doze || s.pwr.state = .sleep then
    { s with pwr := { s.pwr with state := .waking, powerUp := if s.pwr.mediaOn then none else some 0 } }
  else s

/-- The end of WAKING (R171): the media is on, the part enters ACTIVE and POWER becomes pending. The state's re-evaluation at
the unit's end makes it IDLE, with the idle timer at 0, when there is no work. -/
def finishWaking (s : State) : State :=
  setEvent .power
    { s with pwr := { s.pwr with state := .active, powerUp := none, mediaOn := true, idleTimer := 0 } }

/-- With no operation in progress, the media is powered down in SLEEP (R170), and a WAKING that cancelled the power-down
ends (R171). This is done at the unit's end, so a wake in the unit that ended the operation cancels the power-down (log 39). -/
def settleMediaPower (s : State) : State :=
  if s.mm.port.isSome then s
  else
    match s.pwr.state with
    | .sleep => { s with pwr := { s.pwr with mediaOn := false } }
    | .waking => if s.pwr.powerUp.isNone then finishWaking s else s
    | .resetHeld | .mounting | .active | .idle | .doze => s

/-- An accepted SUBMIT is told to the Power Manager (R22 step 3): the intent is disarmed, the idle timer is 0, and in DOZE or
SLEEP WAKING starts (R167, R168, R171). -/
def submitPower (s : State) : State := wakeCause { s with pwr := { s.pwr with intent := false, idleTimer := 0 } }

/-- HOST_CONTROL.WAKE (R171, R167). -/
def wakeAction (s : State) : State :=
  match s.pwr.state with
  | .doze => wakeCause s
  | .sleep => wakeCause s
  | .idle => { s with pwr := { s.pwr with intent := false, idleTimer := 0 } }
  | .active => { s with pwr := { s.pwr with intent := false } }
  | .waking => s
  | .mounting => s
  | .resetHeld => s

/-- The power state is IDLE or ACTIVE (R27, R90). -/
def State.awake (s : State) : Bool := s.pwr.state == .active || s.pwr.state == .idle

/-- The tick occurs (R172): not in RESET_HELD or during a POR or PIN reset, and in SLEEP only until the media is off. -/
def State.ticking (s : State) : Bool :=
  !s.held && s.rst.inReset.isNone && !(s.pwr.state == .sleep && !s.pwr.mediaOn)

/-- The part may enter DOZE (R169). -/
def State.dozeReady (s : State) : Bool :=
  s.pwr.state == .idle && s.pwr.intent && !s.slotWork && !s.engineWork && decide (s.dirtyCount = 0) && !s.frozen

/-- Entry into DOZE (R169). -/
def enterDoze (s : State) : State :=
  setEvent .power { s with pwr := { s.pwr with state := .doze, intent := false, mediaOn := false, idleTimer := 0 } }

/-- Entry into SLEEP (R170): intent, idle timer, reservations, state, POWER. -/
def enterSleep (s : State) : State :=
  let s := { s with pwr := { s.pwr with intent := false, idleTimer := 0 } }
  let s := breakAll .sleep s
  setEvent .power { s with pwr := { s.pwr with state := .sleep } }

/-- The doze intent arms when the idle timer stands at or above the limit of a DOZE_DELAY that is not 0 (R167). -/
def armIntent (s : State) : State :=
  if s.pwr.dozeDelay != 0 && decide (s.pwr.dozeDelay.toNat * Config.dozeUnit ≤ s.pwr.idleTimer) then
    { s with pwr := { s.pwr with intent := true } }
  else s

end Sys2Proof.Machine
end

