-- ==== Sys2Proof/Machine/Unit.lean ====
section
/-!
DEFINITION. What every unit ends with, and what is due after it. The manual has each unit re-evaluate the open groups
(R121), reclaim's activity (R123), the draining indication (R90), buffer assignment (R33), the settle conditions (R30), the
port owner (R47) and the power state (R166): `endUnit` makes these evaluations in that order. It also has some steps follow
"in the same unit" (a start of the sequencer, R27; the end of a wait, R28; entry into DOZE, R169) that the table lists as
rows of their own. `due` names the step that is due in a state, and `caughtUp` performs what is due before any other command
acts, so that no agent ever acts or observes between a unit and the steps due after it (log 1).
-/

namespace Sys2Proof.Machine

/-- The MM's evaluations at the end of a unit: open groups, dead notes, reclaim's activity (R121 to R123). They are not made
in RESET_HELD, during a POR or PIN reset, or during a mount. -/
def evalMedia (s : State) : State :=
  if s.mount.isSome || s.held || s.rst.inReset.isSome then s
  else evalReclaim (pruneNotes (takeHostOpen (takeReclaimOpen s)))

/-- Outside a freeze no retry is held: the retry of an abandoned program of the apply waits only until the freeze ends
(R131, R145). -/
def releaseRetry (s : State) : State :=
  match s.csq.apply with
  | some a => if a.heldRetry && !s.frozen then setApply (some { a with heldRetry := false }) s else s
  | none => s

/-- The evaluations at the end of every unit. The port owner is chosen before a due step is performed (log 37). -/
def endUnit (s : State) : State :=
  evalPower (settleMediaPower (chooseOwner (settleSlots (assignBuffers (evalDraining (evalMedia (releaseRetry s)))))))

/-! ### What is due -/

/-- A step that the manual places in the unit that made it possible, and the table in a row of its own. -/
inductive Due where
  | start (n : Fin 8)
  | lineWaitEnd
  | foregroundEnd
  | dozeEntry
  deriving DecidableEq, Repr

/-- Slot `n` is not yet applied: QUEUED, LOADING or LOADED (R26). -/
def State.unapplied (s : State) (n : Fin 8) : Bool :=
  (s.slot n).state == .queued || (s.slot n).state == .loading || (s.slot n).state == .loaded

/-- The next command to apply (R26). -/
def State.nextCommand (s : State) : Option (Fin 8) := s.csq.runQueue.find? s.unapplied

/-- The slot's own conditions of R27: a WRITE is LOADED; a READ, DESCRIBE or HEALTH holds a buffer. -/
def State.slotReady (s : State) (n : Fin 8) : Bool :=
  if (s.slot n).desc.cmd = .write then (s.slot n).state == .loaded
  else if (s.slot n).desc.cmd.isData then (s.bufOf n).isSome
  else true

/-- The sequencer may start an apply (R27): no apply in progress, not frozen, no mount, IDLE or ACTIVE. -/
def State.sequencerFree (s : State) : Bool :=
  s.csq.apply.isNone && !s.frozen && s.mount.isNone && s.awake

/-- The slot whose apply the sequencer starts now (R26, R27). -/
def State.startable (s : State) : Option (Fin 8) :=
  if s.sequencerFree then
    match s.nextCommand with
    | some n => if s.slotReady n then some n else none
    | none => none
  else none

/-- The step waits for the end of foreground reclaim before it begins its work (R60): every step of a WRITE, and the note
of a TRIM or ERASE_ALL. -/
def Apply.needsSpace (a : Apply) : Bool :=
  match a.kind with
  | .writeCached => true
  | .writeThrough => true
  | .writeAtomic => true
  | .trim => a.step == 1
  | .eraseAll => a.step == 1
  | .read => false
  | .prefetch => false
  | .discard => false
  | .clean => false
  | .flush => false
  | .purge => false
  | .sync => false
  | .describe => false
  | .healthCounters => false
  | .healthDefectList => false
  | .sleep => false

/-- What is due in a state. A cached WRITE whose wait for a line has ended takes its effect even where foreground reclaim has
become active during that wait (log 46). -/
def State.due (s : State) : Option Due :=
  match s.csq.apply with
  | some a =>
    match a.wait with
    | .forLine => if a.kind = .writeCached && s.allocLine.isSome then some .lineWaitEnd else none
    | .forReclaim => if a.needsSpace && !s.foreground then some .foregroundEnd else none
    | .between => none
    | .forMedia _ => none
    | .forSleep => none
  | none =>
    match s.startable with
    | some n => some (.start n)
    | none => if s.dozeReady then some .dozeEntry else none

end Sys2Proof.Machine
end

