-- ==== Sys2Proof/Machine/Sequencer.lean ====
section
/-!
DEFINITION. The sequencer's start of a command (R27): the commit point of every command (R58), the records of DESCRIBE and
HEALTH, the creation of a reservation, and the buffer integrity errors that end a command (R54, R55).
-/

namespace Sys2Proof.Machine

/-! ### Buffer integrity errors -/

/-- A bad word in a WRITE's buffer (R55): F4, then the WRITE ends unapplied with BUFFER_ERROR. -/
def writeBufferError (n : Fin 8) (s : State) : State :=
  completeSlot n .bufferError 0 (modSlot n (fun sl => { sl with flags := .none, detail := 0 }) (raiseFault .f4 s))

/-- The consumption of a captured DATA_PORT word is dropped (R8). -/
def dropConsumption (s : State) : State :=
  match s.hpi.captured with
  | some c =>
    if c.effect = .consumeWord then
      { s with hpi := { s.hpi with captured := some { c with effect := .dropped } } }
    else s
  | none => s

/-- A bad word in the buffer of a slot in UNLOADING (R54): F4, then the slot ends with BUFFER_ERROR and the whole folios
consumed; a captured word of its phase is not consumed. -/
def readBufferError (n : Fin 8) (s : State) : State :=
  let s := raiseFault .f4 s
  let s := if s.dp.owner = some n then dropConsumption s else s
  completeSlot n .bufferError (s.consumedOf n / Config.folioWords) s

/-! ### The end of the commands that place folios (R29, R63) -/

/-- The end of the apply of a READ, DESCRIBE or HEALTH (R29): UNLOADING if a folio was placed, with the reservation of a READ
with RSV (R63), otherwise DONE. It is the same in a freeze, for a step that waited when the freeze began (log 36). -/
def endPlacing (n : Fin 8) (s : State) : State :=
  let sl := s.slot n
  if (s.wordsOf n).isEmpty then finishApply n sl.status 0 s
  else
    let s := modSlot n (fun sl => { sl with state := .unloading }) (setApply none s)
    if sl.desc.cmd = .read && sl.desc.rsv then
      modSlot n (fun sl => { sl with flags := { sl.flags with rsvMade := true } })
        (createRsv { token := sl.desc.token, start := sl.desc.folio, length := sl.desc.count } s)
    else s

/-! ### The records of DESCRIBE and HEALTH -/

/-- A record of 256 words: the listed ones, and 0 after them. -/
def recordWords (l : List Word) : FolioData := l ++ List.replicate (Config.folioWords - l.length) 0

/-- The identity record (Table 4-2). -/
def describeRecord : FolioData :=
  recordWords [Config.familyCode, 1, 1024, 245760, 16, 8, 32, 4, 2, 40, 28, 64, 4096, 3000]

/-- The erase counts of the groups that are not RETIRED, with how many unlisted groups add an erase count of 0. -/
def State.goodErases (s : State) : List Nat × Nat :=
  ((s.mm.groups.filter fun p => p.2.state != .retired).map fun p => p.2.erases, Config.numGroups - s.mm.groups.length)

/-- HEALTH words 1 to 3 (Table 4-3). With no group that is not RETIRED the manual states no value (log 8). -/
def State.eraseWords (s : State) : List Word :=
  let listed := s.goodErases.1
  let unlisted := s.goodErases.2
  let n := listed.length + unlisted
  if n = 0 then [Config.healthOfNoGroup 1, Config.healthOfNoGroup 2, Config.healthOfNoGroup 3]
  else
    let lowest := if 0 < unlisted then 0 else listed.foldl min (listed.headD 0)
    [BitVec.ofNat 32 lowest, BitVec.ofNat 32 (listed.foldl max 0), BitVec.ofNat 32 (listed.sum / n)]

/-- The counters record (Table 4-3). -/
def State.healthRecord (s : State) : FolioData :=
  let h := s.mm.health
  recordWords
    ([0] ++ s.eraseWords ++
      [BitVec.ofNat 32 s.reserve, BitVec.ofNat 32 s.mm.defects.length, BitVec.ofNat 32 (s.groupsIn .retiring).length,
       BitVec.ofNat 32 s.freeCount, BitVec.ofNat 32 (bit s.mm.readOnly), h.correctedReads, h.correctedBits,
       h.uncorrectableReads, h.relocationsDone, h.relocationsDropped, h.mountTorn, h.mountMetaErrors, h.mountReerased,
       h.mountClosed, s.mm.seq])

/-- An entry word of the defect list record (R80). -/
def Defect.word (d : Defect) : Word := pack [(1, 31), (d.origin.code, 16), (d.group, 0)]

/-- The defect list record (R80). -/
def State.defectRecord (s : State) : FolioData := recordWords (s.mm.defects.map Defect.word)

/-! ### The commit points (R58) -/

/-- The slot enters APPLYING and holds the sequencer (R27). -/
def enterApply (n : Fin 8) (k : StartKind) (w : Wait) (s : State) : State :=
  let s := modSlot n (fun sl => { sl with state := .applying }) s
  setApply
    (some { slot := n, kind := k, step := 0, wait := w, seq0 := 0, accepted := [], pendingLocs := [], noteLoc := none
            heldRetry := false }) s

/-- The slot enters APPLYING and its apply goes on with its next step. -/
def beginApply (n : Fin 8) (k : StartKind) (s : State) : State := enterApply n k .between s

/-- The conditional check of a WRITE (R105). -/
def State.condHolds (s : State) (d : Desc) : Bool :=
  s.rvt.entries.any fun r => r.satisfies d.token d.folio d.count

/-- The reservation actions of a WRITE (R63, R105): the satisfying entry is consumed, the overlapping ones broken. -/
def writeRsvActions (d : Desc) (s : State) : State :=
  let s := if d.cond then consumeRsv d.token d.folio d.count s else s
  breakWhere (fun r => r.overlaps d.folio d.count) .write s

/-- The commit point of a WRITE, after its buffer has passed its check (R58, R64). -/
def commitWrite (n : Fin 8) (k : StartKind) (s : State) : State :=
  let d := (s.slot n).desc
  if s.mm.readOnly then completeSlot n .writeProtected 0 s
  else if d.cond && !s.condHolds d then completeSlot n .condFail 0 s
  else writeRsvActions d (beginApply n k s)

/-- The start of a WRITE: its whole buffer is checked first (R53, R55). -/
def startWrite (n : Fin 8) (k : StartKind) (bad : Bool) (s : State) : State :=
  if bad then writeBufferError n s else commitWrite n k s

/-- The commit point of a TRIM (R58). -/
def commitTrim (n : Fin 8) (s : State) : State :=
  let d := (s.slot n).desc
  if s.mm.readOnly then completeSlot n .writeProtected 0 s
  else breakWhere (fun r => r.overlaps d.folio d.count) .trim (beginApply n .trim s)

/-- The commit point of an ERASE_ALL (R58). -/
def commitEraseAll (n : Fin 8) (s : State) : State :=
  if s.mm.readOnly then completeSlot n .writeProtected 0 s
  else breakAll .erase (beginApply n .eraseAll s)

/-- The commit point of a DISCARD (R58). -/
def commitDiscard (n : Fin 8) (s : State) : State :=
  let d := (s.slot n).desc
  breakWhere (fun r => r.overlaps d.folio d.count) .discard (beginApply n .discard s)

/-- The triple of a line as it stands (R72). -/
def State.tripleOf (s : State) (l : Fin 32) : Triple :=
  { line := l, folio := (s.line l).folio, version := (s.line l).version }

/-- A settling command whose apply has ended: SETTLING, or DONE if its condition is already met (R29). -/
def endSettling (n : Fin 8) (s : State) : State :=
  settleSlots (modSlot n (fun sl => { sl with state := .settling }) s)

/-- The commit point of a CLEAN (R72): the DIRTY lines of its range. -/
def commitClean (n : Fin 8) (s : State) : State :=
  let d := (s.slot n).desc
  let ls := (s.linesIn d.folio d.count).filter fun l => (s.line l).state == .dirty
  endSettling n (modSlot n (fun sl =>
    { sl with triples := ls.map s.tripleOf, foliosDone := ls.length, detail := 0 }) s)

/-- The commit point of a FLUSH (R72): every DIRTY line. -/
def commitFlush (n : Fin 8) (s : State) : State :=
  endSettling n (modSlot n (fun sl =>
    { sl with triples := s.dirtyLines.map s.tripleOf, foliosDone := 0
              detail := BitVec.ofNat 32 s.dirtyLines.length }) s)

/-- A PURGE examines one line of its range (R74): CLEAN, dropped and counted; DIRTY, marked, taking over an older mark. -/
def purgeExamine (n : Fin 8) (l : Fin 32) (s : State) : State :=
  let ln := s.line l
  match ln.state with
  | .clean => modSlot n (fun sl => { sl with detail := sl.detail + 1 }) (invalidate l s)
  | .dirty => setLine l { ln with purgeMark := some n } (givePartial ln.purgeMark s)
  | .invalid => s
  | .filling => s

/-- The commit point of a PURGE (R74). -/
def commitPurge (n : Fin 8) (s : State) : State :=
  let d := (s.slot n).desc
  let ls := s.linesIn d.folio d.count
  let s := ls.foldl (fun s l => purgeExamine n l s) s
  endSettling n (modSlot n (fun sl => { sl with foliosDone := ls.length }) s)

/-- The commit point of a SYNC (R76): the older slots that are not DONE are counted. -/
def commitSync (n : Fin 8) (s : State) : State :=
  let count := ((s.older n).filter fun m => (s.slot m).state != .done).length
  endSettling n (modSlot n (fun sl => { sl with detail := BitVec.ofNat 32 count, foliosDone := 0 }) s)

/-- The one step of a DESCRIBE or HEALTH (R77, R78): its record is placed, and the slot enters UNLOADING. -/
def commitRecord (n : Fin 8) (detail : Word) (words : FolioData) (s : State) : State :=
  endPlacing n (placeFolio n words (modSlot n (fun sl => { sl with detail := detail }) s))

/-- The commit point of a SLEEP (R81 step 1). -/
def commitSleep (n : Fin 8) (s : State) : State :=
  enterApply n .sleep .forSleep (modSlot n (fun sl => { sl with detail := BitVec.ofNat 32 s.dirtyCount }) s)

/-- The start of slot `n` by its row (R27, R58). `bad` is the outcome of the check of a WRITE's buffer. -/
def startSlot (n : Fin 8) (bad : Bool) (s : State) : State :=
  match (s.slot n).desc.startKind s.fc.wt with
  | .read => beginApply n .read s
  | .writeCached => startWrite n .writeCached bad s
  | .writeThrough => startWrite n .writeThrough bad s
  | .writeAtomic => startWrite n .writeAtomic bad s
  | .trim => commitTrim n s
  | .prefetch => beginApply n .prefetch s
  | .discard => commitDiscard n s
  | .clean => commitClean n s
  | .flush => commitFlush n s
  | .purge => commitPurge n s
  | .sync => commitSync n s
  | .describe => commitRecord n 0 describeRecord s
  | .healthCounters => commitRecord n (s.slot n).desc.aux s.healthRecord s
  | .healthDefectList => commitRecord n (s.slot n).desc.aux s.defectRecord s
  | .sleep => commitSleep n s
  | .eraseAll => commitEraseAll n s

end Sys2Proof.Machine
end

