-- ==== Sys2Proof/Machine/Steps.lean ====
section
/-!
DEFINITION. The steps of an apply after its commit point (R28): READ (R61 to R63), the three paths of WRITE (R65 to R68,
R145), TRIM and ERASE_ALL (R69, R83), PREFETCH (R70) and DISCARD (R71); the wait for the end of foreground reclaim (R60)
and for a line (R66); and the performance of what is due before a command acts.
-/

namespace Sys2Proof.Machine

/-! ### Going on -/

/-- The folio of the apply's current position. -/
def State.stepFolio (s : State) (a : Apply) : Nat := (s.slot a.slot).desc.folio + a.step

/-- The count of the apply's command. -/
def State.applyCount (s : State) (a : Apply) : Nat := (s.slot a.slot).desc.count

/-- The apply goes on with its next step. -/
def nextStep (a : Apply) (s : State) : State := setApply (some { a with step := a.step + 1, wait := .between }) s

/-- The apply ends with status OK and folios_done equal to its count (R65, R67, R68, R69, R71, R83). -/
def finishCount (a : Apply) (s : State) : State := finishApply a.slot .ok (s.applyCount a) s

/-- A step of a cached or write-through WRITE has ended: the next position, or the end of the apply. -/
def advanceWrite (a : Apply) (s : State) : State :=
  if a.step + 1 < s.applyCount a then nextStep a s else finishCount a s

/-- The step waits for a media operation it has requested (R28). -/
def requestMedia (a : Apply) (r : MediaReq) (s : State) : State := setApply (some { a with wait := .forMedia r }) s

/-- Change the flags of slot `n`'s record. -/
def modFlags (n : Fin 8) (f : CompFlags → CompFlags) (s : State) : State :=
  modSlot n (fun sl => { sl with flags := f sl.flags }) s

/-! ### READ (R61, R62) -/

/-- A READ step has placed its folio: the next position, or the end of the apply. -/
def advanceRead (a : Apply) (s : State) : State :=
  if a.step + 1 < s.applyCount a then nextStep a s else endPlacing a.slot s

/-- A READ step finds folio `f` unreadable (R62). -/
def readUnreadable (a : Apply) (f : Nat) (s : State) : State :=
  endPlacing a.slot (modSlot a.slot (fun sl => { sl with status := .unreadable, detail := BitVec.ofNat 32 f }) s)

/-- 256 words of 0 (R61). -/
def zeroFolio : FolioData := List.replicate Config.folioWords 0

/-- The cases of R61 in which no line holds folio `f`. -/
def readMiss (a : Apply) (f : Nat) (s : State) : State :=
  match (s.mapEntry f).state with
  | .never => advanceRead a (placeFolio a.slot zeroFolio (modFlags a.slot (fun g => { g with unmapped := true }) s))
  | .trimmed => advanceRead a (placeFolio a.slot zeroFolio (modFlags a.slot (fun g => { g with unmapped := true }) s))
  | .poisoned => readUnreadable a f s
  | .mapped =>
    match s.allocLine with
    | some l => requestMedia a (.fill l f) (allocFilling l f s)
    | none => requestMedia a (.direct f) s

/-- A READ step copies line `l` into its buffer (R61). -/
def readHit (a : Apply) (l : Fin 32) (s : State) : State :=
  advanceRead a (placeFolio a.slot (s.line l).data (touch l s))

/-- The check of line `l` finds an error (R98, R99). -/
def lineError (l : Fin 32) (s : State) : State :=
  if (s.line l).state = .dirty then dirtyLineError l s else cleanLineError l s

/-- A READ step (R61). `bad` is the outcome of the line check it makes on a hit (R97); after an error it goes on as though
no line had held the folio (R98, R99). -/
def readStep (a : Apply) (bad : Bool) (s : State) : State :=
  match s.findLine (s.stepFolio a) with
  | some l => if bad then readMiss a (s.stepFolio a) (lineError l s) else readHit a l s
  | none => readMiss a (s.stepFolio a) s

/-! ### PREFETCH (R70) -/

/-- A PREFETCH step has ended: the next position, or the end of the apply. -/
def advancePrefetch (a : Apply) (s : State) : State :=
  if a.step + 1 < s.applyCount a then nextStep a s else finishApply a.slot .ok (a.step + 1) s

/-- A PREFETCH step (R70). Without a line the apply ends, the position at hand counted as examined (log 9). -/
def prefetchStep (a : Apply) (s : State) : State :=
  if (s.findLine (s.stepFolio a)).isSome || (s.mapEntry (s.stepFolio a)).state != .mapped then advancePrefetch a s
  else
    match s.allocLine with
    | some l => requestMedia a (.fill l (s.stepFolio a)) (allocFilling l (s.stepFolio a) s)
    | none => finishApply a.slot .ok (a.step + 1) s

/-! ### WRITE -/

/-- The work of a step of a cached WRITE (R65, R66). -/
def cachedStep (a : Apply) (s : State) : State :=
  let f := s.stepFolio a
  match s.findLine f with
  | some l => advanceWrite a (writeDirty l f (s.bufferFolio a.slot a.step) s)
  | none =>
    match s.allocLine with
    | some l => advanceWrite a (writeDirty l f (s.bufferFolio a.slot a.step) s)
    | none => setApply (some { a with wait := .forLine }) s

/-- The program of a DATA folio with a sequence (R67). -/
def dataProg (f : Nat) (seq : Word) (data : FolioData) : Prog :=
  { metadata := { kind := .data, start := f, count := 0, seq := seq, copyMark := false, base := 0 }, data := data
    rotten := false }

/-- The work of a step of a write-through WRITE up to its program (R67 steps 1 and 2, R115). -/
def throughStep (a : Apply) (s : State) : State :=
  requestMedia a (.prog (dataProg (s.stepFolio a) s.mm.seq (s.bufferFolio a.slot a.step))) (takeSeq 1 s)

/-- The program of a DATA_TENTATIVE folio (R145 step 1). -/
def tentativeProg (f : Nat) (base : Word) (i : Nat) (data : FolioData) : Prog :=
  { metadata := { kind := .tentative, start := f, count := 0, seq := base + BitVec.ofNat 32 i, copyMark := false
                  base := base }
    data := data, rotten := false }

/-- The program of a COMMIT_NOTE (R145 step 2). -/
def commitProg (start count : Nat) (base : Word) : Prog :=
  { metadata := { kind := .commitNote, start := start, count := count, seq := base + BitVec.ofNat 32 count
                  copyMark := false, base := base }
    data := zeroFolio, rotten := false }

/-- The cache update of the next accepted folio of an atomic WRITE (R145 step 4), and the WRITE's end after the last. It is
made although a ticket of higher sequence has landed since the folio's offer was accepted (log 42). -/
def atomicUpdate (a : Apply) (s : State) : State :=
  match a.accepted with
  | [] => finishCount a s
  | i :: rest =>
    let s := cacheUpdate ((s.slot a.slot).desc.folio + i) (s.bufferFolio a.slot i) s
    if rest.isEmpty then finishCount a (setApply (some { a with accepted := [] }) s)
    else setApply (some { a with step := a.step + 1, wait := .between, accepted := rest }) s

/-- The work of a step of an atomic WRITE (R145): its programs, then its cache updates. At its first request the MM gives it
its sequences (R115). -/
def atomicStep (a : Apply) (s : State) : State :=
  let d := (s.slot a.slot).desc
  if d.count < a.step then atomicUpdate a s
  else
    let a' := if a.step = 0 then { a with seq0 := s.mm.seq } else a
    let s' := if a.step = 0 then takeSeq (d.count + 1) s else s
    if a.step < d.count then
      requestMedia a' (.prog (tentativeProg (d.folio + a.step) a'.seq0 a.step (s.bufferFolio a.slot a.step))) s'
    else requestMedia a' (.prog (commitProg d.folio d.count a'.seq0)) s'

/-! ### TRIM and ERASE_ALL (R69, R83) -/

/-- The first folio and the number of folios that the note of a TRIM or ERASE_ALL names. -/
def State.noteRange (s : State) (a : Apply) : Nat × Nat :=
  if a.kind = .eraseAll then (0, Config.numFolios) else ((s.slot a.slot).desc.folio, (s.slot a.slot).desc.count)

/-- Step 1: the lines of the range become INVALID, and detail takes their number. -/
def trimInvalidate (a : Apply) (s : State) : State :=
  let ls := s.linesIn (s.noteRange a).1 (s.noteRange a).2
  nextStep a (modSlot a.slot (fun sl => { sl with detail := BitVec.ofNat 32 ls.length }) (invalidateAll ls s))

/-- The program of a TRIM_NOTE. -/
def noteProg (start count : Nat) (seq : Word) : Prog :=
  { metadata := { kind := .trimNote, start := start, count := count, seq := seq, copyMark := false, base := 0 }
    data := zeroFolio, rotten := false }

/-- Step 2, up to its program: the note receives its sequence as it is requested (R115). -/
def trimNote (a : Apply) (s : State) : State :=
  requestMedia { a with seq0 := s.mm.seq } (.prog (noteProg (s.noteRange a).1 (s.noteRange a).2 s.mm.seq)) (takeSeq 1 s)

/-- Every folio of a range takes the map state TRIMMED with the note as target; poison ends (R69 step 3, R117). -/
def unmapRange (start count : Nat) (e : MapEntry) (s : State) : State :=
  if start = 0 && count = Config.numFolios then { s with mm := { s.mm with map := FolioMap.constant e } }
  else (List.range count).foldl (fun s i => putEntry (start + i) e s) s

/-- The entry that an accepted trim note gives (R117). -/
def Apply.noteEntry (a : Apply) : MapEntry := { state := .trimmed, target := a.noteLoc, seq := a.seq0 }

/-- Step 3: unmapping, and the end of the command. -/
def trimUnmap (a : Apply) (s : State) : State :=
  let r := s.noteRange a
  finishApply a.slot .ok (if a.kind = .eraseAll then 0 else s.applyCount a) (unmapRange r.1 r.2 a.noteEntry s)

/-- The work of a step of a TRIM or ERASE_ALL. -/
def trimStep (a : Apply) (s : State) : State :=
  match a.step with
  | 0 => trimInvalidate a s
  | 1 => trimNote a s
  | _ => trimUnmap a s

/-! ### DISCARD (R71) -/

/-- The ticket in flight was captured from one of the lines and the folio it holds (log 10). -/
def State.ticketIn (s : State) (ls : List (Fin 32)) : Bool :=
  match s.fc.ticket with
  | some t => ls.contains t.line && (s.line t.line).folio == t.folio
  | none => false

/-- The step of a DISCARD (R71). -/
def discardStep (a : Apply) (s : State) : State :=
  let ls := s.linesIn (s.slot a.slot).desc.folio (s.applyCount a)
  let raced := s.ticketIn ls
  let s := modSlot a.slot (fun sl =>
    { sl with detail := BitVec.ofNat 32 ls.length, flags := { sl.flags with discardRaced := sl.flags.discardRaced || raced } })
    (invalidateAll ls s)
  finishCount a s

/-! ### The step (R28, R60) -/

/-- The work of the apply's current step, once it waits for nothing. -/
def stepWork (a : Apply) (bad : Bool) (s : State) : State :=
  match a.kind with
  | .read => readStep a bad s
  | .writeCached => cachedStep a s
  | .writeThrough => throughStep a s
  | .writeAtomic => atomicStep a s
  | .trim => trimStep a s
  | .eraseAll => trimStep a s
  | .prefetch => prefetchStep a s
  | .discard => discardStep a s
  | .clean => s
  | .flush => s
  | .purge => s
  | .sync => s
  | .describe => s
  | .healthCounters => s
  | .healthDefectList => s
  | .sleep => s

/-- The apply's next step begins. -/
def beginStep (a : Apply) (bad : Bool) (s : State) : State :=
  if a.needsSpace && s.foreground then setApply (some { a with wait := .forReclaim }) s else stepWork a bad s

/-! ### What is due -/

/-- The end of a wait for a line or for foreground reclaim: the step takes its effect (R28). -/
def endWait (s : State) : State :=
  match s.csq.apply with
  | some a => stepWork a false s
  | none => s

/-- Perform a due step. `bad` is the outcome of the full check of a WRITE's buffer. -/
def perform (d : Due) (bad : Bool) (s : State) : State :=
  match d with
  | .start n => endUnit (startSlot n bad s)
  | .lineWaitEnd => endUnit (endWait s)
  | .foregroundEnd => endUnit (endWait s)
  | .dozeEntry => endUnit (enterDoze s)

/-- Perform what is due, at most `fuel` steps of it. Every due step ends a wait, starts one of at most eight waiting slots or
enters DOZE, so that 24 steps always suffice (log 1). -/
def settleDue : Nat → State → State
  | 0, s => s
  | fuel + 1, s =>
    match s.due with
    | some d => settleDue fuel (perform d false s)
    | none => s

/-- The state with everything performed that is due in it (log 1). -/
def caughtUp (s : State) : State := settleDue 24 s

end Sys2Proof.Machine
end

