-- ==== Sys2Proof/Machine/Reset.lean ====
section
/-!
DEFINITION. The resets (chapter 11): the full reset with the operation it cuts off (R176), the start of the mount that
follows it (R138, R139), the partial reset with the completions it makes first (R177 to R179), and the raising of a hard
fault that may collide (R160, R163).
-/

namespace Sys2Proof.Machine

/-! ### The full reset -/

/-- What a full reset leaves of the operation that was in progress (R176): a program cut off leaves its position torn, and its
group's next free position past it; an erase leaves the erasing mark it set as it began; a read leaves nothing. -/
def cutOff (port : Option PortOp) (s : State) : State :=
  match port with
  | some op =>
    match op.op with
    | .program loc p =>
      putGroup (groupOf loc) { s.group (groupOf loc) with nextFree := loc % Config.groupFolios + 1 } (putCell loc p false s)
    | .erase _ => s
    | .read _ => s
  | none => s

/-- What stands of a group through a full reset: retirement, erase count and erasing mark, which the record region holds
(R114). The state of any other group and the next free position are lost, and the scan finds them again (R137, R141, R147,
log 32). -/
def Group.recorded (g : Group) : Group :=
  { g with
    state := (match g.state with
      | .retiring => .retiring
      | .retired => .retired
      | .free => .free
      | .opened => .free
      | .full => .free)
    nextFree := 0 }

/-- The MM after a full reset (R137, R147): the flash array and the record region survive, all else is at its empty value
until the mount rebuilds it. -/
def Media.surviving (m : Media) : Media :=
  { Media.blank with
    flash := m.flash
    groups := (m.groups.map fun p => (p.1, p.2.recorded)).filter fun p => p.2 != Group.fresh
    defects := m.defects }

/-- The HPI after a POR or PIN reset (R13): the frame is abandoned, and bits are ignored until SELn rises. -/
def Hpi.abandoned (h : Hpi) : Hpi :=
  { Hpi.reset with
    selected := h.selected, phase := if h.selected then .discarding else .idle, sdo := if h.selected then .low else .highZ }

/-- The HPI after a reset across which the frame continues (R13): REJECT_LOG empty, no snapshot, and a captured word without
its side effect. -/
def Hpi.continued (h : Hpi) : Hpi :=
  { h with
    log := .empty, snapshot := none, captured := h.captured.map fun c => { c with effect := .dropped } }

/-- A full reset of kind `k` (R176, Table 11-1). -/
def fullReset (k : ResetKind) (s : State) : State :=
  cutOff s.mm.port
  { hpi := if k = .port then s.hpi.continued else s.hpi.abandoned
    csq := .reset, dp := .reset, fc := .reset, rvt := .reset, mm := s.mm.surviving, mount := none, ntc := .reset
    pwr := .reset
    rst := { resetnLow := s.rst.resetnLow, inReset := if k = .port then none else some k, portReset := k = .port
             nen := false, cause := k, collision := none }
    pending := s.pending }

/-! ### The start of a mount -/

/-- The first group from `g` up that the mount does not skip: RETIRED groups are not read (R139). -/
def State.nextGroup (s : State) (g : Nat) : Nat :=
  sparseGap g (s.mm.groups.filter fun p => p.2.state == .retired)

/-- Start a media operation of the Mount Engine. -/
def mountOp (op : MediaOp) (s : State) : State :=
  { s with mm := { s.mm with port := some { req := .mount, op := op, ticks := 0 } } }

/-- Change the mount in progress. -/
def modMount (f : Mount → Mount) (s : State) : State := { s with mount := s.mount.map f }

/-- The mount goes on with the first group from `g` up (R139): it erases a group that carries the erasing mark again, reads
position 0 of any other, and comes to the resolution after the last group. -/
def mountGroup (g : Nat) (s : State) : State :=
  let h := s.nextGroup g
  if h < Config.numGroups then
    if (s.group h).erasing then mountOp (.erase h) s else mountOp (.read (h * Config.groupFolios)) s
  else modMount (fun m => { m with phase := .resolution }) s

/-- The mount begins (R138). -/
def startMount (s : State) : State := mountGroup 0 { s with mount := some .start }

/-! ### The partial reset -/

/-- R179: the cache update of position `i` of an atomic WRITE, made only in a line that holds the folio and without moving
it in the last-use order. -/
def resetUpdate (a : Apply) (s : State) (i : Nat) : State :=
  let f := (s.slot a.slot).desc.folio + i
  match s.findLine f with
  | some l => writeClean l f (s.bufferFolio a.slot i) s
  | none => s

/-- What the reset unit completes first: the cache update of an atomic WRITE whose commit note has completed (R179), and the
unmapping of a TRIM or ERASE_ALL whose note has completed, which R178 gives its full effect (log 11). -/
def completeFirst (s : State) : State :=
  match s.csq.apply with
  | some a =>
    match a.kind with
    | .writeAtomic => if (s.slot a.slot).desc.count < a.step then a.accepted.foldl (resetUpdate a) s else s
    | .trim => if 2 ≤ a.step then unmapRange (s.noteRange a).1 (s.noteRange a).2 a.noteEntry s else s
    | .eraseAll => if 2 ≤ a.step then unmapRange (s.noteRange a).1 (s.noteRange a).2 a.noteEntry s else s
    | .read | .writeCached | .writeThrough | .prefetch | .discard | .clean | .flush | .purge | .sync | .describe
    | .healthCounters | .healthDefectList | .sleep => s
  | none => s

/-- A line after a partial reset (R100): FILLING becomes INVALID, and a purge mark is removed. -/
def Line.partialReset (l : Line) : Line :=
  if l.state = .filling then { l with state := .invalid, purgeMark := none, data := [] } else { l with purgeMark := none }

/-- The cache after a partial reset (R100). -/
def cachePartial (s : State) : State :=
  let s := { s with fc := { s.fc with lines := vecMap Line.partialReset s.fc.lines } }
  { s with fc := { s.fc with draining := decide (s.fc.high.toNat < s.dirtyCount) } }

/-- An operation that an apply step requested goes on without its command (R178). -/
def PortOp.orphaned (o : PortOp) : PortOp := { o with req := if o.req = .apply then .orphan else o.req }

/-- The NTC after a partial reset (R164). -/
def Ntc.partialReset (n : Ntc) : Ntc :=
  { n with evPending := 0, faults := 0, level := 0, stack := [], quiet := 0, unannounced := 0, timer := none }

/-- A partial reset of kind `k` with the collision record it brings, if any (R177, Table 11-1, R180). An operation of an apply
step that waits at the port leaves it with its command: a program is withdrawn (R178), and so is a media read (log 44). -/
def partialReset (k : ResetKind) (record : Option (FaultCode × FaultCode)) (s : State) : State :=
  let s := completeFirst s
  let s := { s with hpi := s.hpi.continued, csq := .reset, dp := .reset, rvt := .reset }
  let s := cachePartial s
  let s := { s with mm := { s.mm with port := s.mm.port.map PortOp.orphaned }, ntc := s.ntc.partialReset }
  let s := wakeCause { s with pwr := { s.pwr with intent := false, idleTimer := 0 } }
  { s with rst := { s.rst with cause := k, collision := if record.isSome then record else s.rst.collision } }

/-! ### Hard faults that may collide -/

/-- The higher hard fault with which an arriving fault collides (R163), also where the arriving fault is itself pending or in
service already (log 43). -/
def State.collidesWith (s : State) (f : FaultCode) : Option FaultCode :=
  match s.ntc.highestHard with
  | some h => if f.level < h.level then some h else none
  | none => none

/-- Raise a hard fault (R160), or reset the part in a collision (R163). -/
def raiseHard (f : FaultCode) (s : State) : State :=
  match s.collidesWith f with
  | some h => partialReset .collision (some (h, f)) s
  | none => raiseFault f s

/-- Raise F2 with its detail, the location of the first metadata error (R144 step 6, R160). -/
def raiseMap (loc : Loc) (s : State) : State :=
  match s.collidesWith .f2 with
  | some h => partialReset .collision (some (h, .f2)) s
  | none =>
    let s := raiseFault .f2 s
    { s with ntc := { s.ntc with f2Detail := BitVec.ofNat 18 loc } }

end Sys2Proof.Machine
end

