-- ==== Sys2Proof/Machine/Registers.lean ====
section
/-!
DEFINITION. The registers (Table 12-1): where each lies, what a read of it returns, and the words of the completion head.
The two registers whose reads have side effects, DATA_PORT and CLAIM, are captured in Machine/Frames.lean.
-/

namespace Sys2Proof.Machine

/-- The registers of Table 12-1. -/
inductive Reg where
  | deviceId
  | deviceState
  | portConfig
  | hostControl
  | resetCause
  | rejectLog
  | cd (n : Fin 4)
  | submit
  | abort
  | slotState
  | runOrder
  | ch (n : Fin 4)
  | cqStatus
  | retire
  | dataOwner
  | dataPort
  | evPending
  | evEnable
  | evLevel
  | faultPending
  | claim
  | endReg
  | service
  | ntcConfig
  | quiet
  | coalesce
  | cachePolicy
  | cacheStatus
  | dozeDelay
  | rsvView (n : Fin 4)
  | mediaStatus
  | rsvLost
  deriving DecidableEq, Repr

/-- The offsets of Table 12-1 below the data window. -/
def regTable : List (Nat × Reg) :=
  [(0x00, .deviceId), (0x01, .deviceState), (0x02, .portConfig), (0x03, .hostControl), (0x04, .resetCause),
   (0x05, .rejectLog), (0x08, .cd 0), (0x09, .cd 1), (0x0A, .cd 2), (0x0B, .cd 3), (0x0C, .submit), (0x0D, .abort),
   (0x0E, .slotState), (0x0F, .runOrder), (0x10, .ch 0), (0x11, .ch 1), (0x12, .ch 2), (0x13, .ch 3),
   (0x14, .cqStatus), (0x15, .retire), (0x18, .dataOwner), (0x19, .dataPort), (0x20, .evPending), (0x21, .evEnable),
   (0x22, .evLevel), (0x23, .faultPending), (0x24, .claim), (0x25, .endReg), (0x26, .service), (0x27, .ntcConfig),
   (0x28, .quiet), (0x29, .coalesce), (0x30, .cachePolicy), (0x31, .cacheStatus), (0x32, .dozeDelay),
   (0x38, .rsvView 0), (0x39, .rsvView 1), (0x3A, .rsvView 2), (0x3B, .rsvView 3), (0x3C, .mediaStatus),
   (0x3D, .rsvLost)]

/-- The register that a word address decodes to; none where it is undecoded (R10, R11). -/
def regOf (a : WordAddr) : Option Reg := if isDataPortAddr a then some .dataPort else sparseGet a.toNat regTable

/-! ### Views (computed, not stored) -/

/-- DEVICE_STATE (Table 12-2). -/
def State.deviceState (s : State) : Word :=
  layout [(s.pwr.state.code, 0, 3), (bit s.frozen, 3, 1), (bit s.mm.readOnly, 4, 1), (bit s.notifyLow, 5, 1),
          (bit s.alertLow, 6, 1), (s.csq.completions.length, 8, 4), (bit (s.ntc.pendingEvent .reject), 16, 1)]

/-- The collision fields of RESET_CAUSE (R180). -/
def collisionFields : Option (FaultCode × FaultCode) → List (Nat × Nat × Nat)
  | some (higher, arriving) => [(higher.code, 8, 5), (arriving.code, 16, 5)]
  | none => []

/-- RESET_CAUSE (R180). -/
def State.resetCause (s : State) : Word := layout ((s.rst.cause.code, 0, 3) :: collisionFields s.rst.collision)

/-- REJECT_LOG (Table 1-1). -/
def RejectLog.word (l : RejectLog) : Word :=
  layout [(match l.reason with | some r => r.code | none => 0, 0, 4), (l.count, 8, 8), (l.cmdCode.toNat, 16, 8),
          (l.target.toNat, 24, 8)]

/-- SLOT_STATE (R23): the state of slot n in bits 4n+3..4n. -/
def State.slotStates (s : State) : Word := layout ((List.finRange 8).map fun n => ((s.slot n).state.code, 4 * n.val, 4))

/-- RUN_ORDER (R24): field i is the ith-oldest entry, bit 3 saying that it exists. -/
def State.runOrder (s : State) : Word :=
  layout (s.csq.runQueue.zipIdx.map fun p => (8 + p.1.val, 4 * p.2, 4))

/-- The flags word of a record (Table 12-4, CH1). -/
def CompFlags.word (f : CompFlags) : Word :=
  layout [(bit f.abortLate, 0, 1), (bit f.corrected, 1, 1), (bit f.unmapped, 2, 1), (bit f.rsvMade, 3, 1),
          (bit f.discardRaced, 4, 1), (bit f.purgePartial, 5, 1), (bit f.sleepSkipped, 6, 1)]

/-- The four words of a record (Table 12-4). -/
def Completion.words (c : Completion) : HeadWords :=
  { ch0 := layout [(c.slot.val, 0, 3), (c.cmd.code, 8, 8), (c.status.code, 16, 3), (c.foliosDone, 24, 5)]
    ch1 := c.flags.word, ch2 := c.detail, ch3 := c.hostTag }

/-- CH0..CH3 of an empty completion queue (R39). -/
def HeadWords.zero : HeadWords := { ch0 := 0, ch1 := 0, ch2 := 0, ch3 := 0 }

/-- The head of the completion queue (R39). -/
def State.headWords (s : State) : HeadWords :=
  match s.csq.completions with
  | c :: _ => c.words
  | [] => .zero

/-- Word `n` of a head. -/
def HeadWords.word (h : HeadWords) (n : Fin 4) : Word :=
  match n with
  | 0 => h.ch0
  | 1 => h.ch1
  | 2 => h.ch2
  | 3 => h.ch3

/-- No apply can start or continue (R39, halted). -/
def State.halted (s : State) : Bool :=
  s.frozen || s.mount.isSome || s.pwr.state == .doze || s.pwr.state == .sleep || s.pwr.state == .waking

/-- The number of FREE slots. -/
def State.freeSlots (s : State) : Nat := (s.csq.slots.toList.filter fun sl => sl.state == .free).length

/-- The apply fields of CQ_STATUS: apply_valid, apply_slot and hold (R39, R31). -/
def State.applyFields (s : State) : List (Nat × Nat × Nat) :=
  match s.csq.apply with
  | some a => [(1, 8, 1), (a.slot.val, 9, 3), (bit a.kind.serializing, 12, 1)]
  | none => []

/-- CQ_STATUS (R39). -/
def State.cqStatus (s : State) : Word :=
  layout ([(s.csq.completions.length, 0, 4), (s.freeSlots, 4, 4), (bit s.halted, 13, 1)] ++ s.applyFields)

/-- DATA_OWNER (R48). -/
def State.dataOwner (s : State) : Word :=
  match s.dp.owner with
  | some n => layout [(1, 31, 1), (bit ((s.slot n).state == .unloading), 30, 1), (n.val, 24, 3), (s.wordsRemaining n, 0, 13)]
  | none => 0

/-- FAULT_PENDING (R150). -/
def State.faultPending (s : State) : Word := layout [(s.ntc.faults.toNat, 0, 4), (s.ntc.f2Detail.toNat, 8, 18)]

/-- SERVICE (Table 9-3). -/
def State.service (s : State) : Word := layout [(s.ntc.level, 0, 4), (s.ntc.stack.length, 8, 3)]

/-- COALESCE (R159). -/
def State.coalesce (s : State) : Word :=
  layout [(s.ntc.threshold.toNat, 0, 4), (s.ntc.timeout.toNat, 8, 8), (s.ntc.unannounced, 16, 4)]

/-- CACHE_POLICY (R94). -/
def State.cachePolicy (s : State) : Word := layout [(s.fc.high.toNat, 0, 6), (s.fc.low.toNat, 8, 6), (bit s.fc.wt, 16, 1)]

/-- CACHE_STATUS (R95). -/
def State.cacheStatus (s : State) : Word :=
  layout [(s.validLines, 0, 6), (s.dirtyCount, 8, 6), (s.fc.dirtyList.length, 16, 6), (bit s.fc.ticket.isSome, 24, 1),
          (bit s.fc.draining, 25, 1), (bit s.wbeRuns, 26, 1)]

/-- The word of a reservation entry (Table 6-1). -/
def Rsv.word (r : Rsv) : Word := layout [(1, 31, 1), (r.token.toNat, 23, 8), (r.length, 18, 5), (r.start, 0, 18)]

/-- RSV_VIEW n (R102). -/
def State.rsvView (s : State) (n : Fin 4) : Word :=
  match s.rvt.entries[n.val]? with
  | some r => r.word
  | none => 0

/-- The reclaim field of MEDIA_STATUS (R136). -/
def ReclaimPriority.code : ReclaimPriority → Nat
  | .inactive => 0
  | .background => 1
  | .foreground => 2

/-- MEDIA_STATUS (R136): 0 during a mount. -/
def State.mediaStatus (s : State) : Word :=
  if s.mount.isSome then 0
  else
    layout [(s.freeCount, 0, 12), (s.reserve, 12, 9), (bit s.mm.readOnly, 21, 1), (s.reclaimPriority.code, 22, 2),
            (s.mm.relocQueue.length, 24, 5)]

/-- RSV_LOST (Table 6-3). -/
def State.rsvLost (s : State) : Word :=
  match s.rvt.lost with
  | some l => layout [(l.token.toNat, 0, 8), (l.cause.code, 8, 4)]
  | none => 0

/-- The value of CLAIM (Table 9-2, R153): nothing to claim, a full stack, or the winner. -/
def State.claimValue (s : State) : Word :=
  match s.ntc.claimable with
  | none => 63
  | some w => if Config.stackDepth ≤ s.ntc.stack.length then 63 else pack [(w.code, 0), (w.level, 8)]

/-- The value a read of a register captures outside RESET_HELD (R182); DATA_PORT is captured by R50 and R51 instead. -/
def State.readReg (s : State) : Reg → Word
  | .deviceId => Config.familyCode
  | .deviceState => s.deviceState
  | .portConfig => layout [(bit s.rst.portReset, 0, 1)]
  | .hostControl => layout [(bit s.rst.nen, 0, 1)]
  | .resetCause => s.resetCause
  | .rejectLog => s.hpi.log.word
  | .cd n => s.csq.cd[n]
  | .submit => 0
  | .abort => 0
  | .slotState => s.slotStates
  | .runOrder => s.runOrder
  | .ch n => s.headWords.word n
  | .cqStatus => s.cqStatus
  | .retire => 0
  | .dataOwner => s.dataOwner
  | .dataPort => 0
  | .evPending => s.ntc.evPending.setWidth 32
  | .evEnable => s.ntc.evEnable.setWidth 32
  | .evLevel => s.ntc.evLevel.setWidth 32
  | .faultPending => s.faultPending
  | .claim => s.claimValue
  | .endReg => 0
  | .service => s.service
  | .ntcConfig => layout [(bit s.ntc.nestOff, 0, 1)]
  | .quiet => s.ntc.quiet.setWidth 32
  | .coalesce => s.coalesce
  | .cachePolicy => s.cachePolicy
  | .cacheStatus => s.cacheStatus
  | .dozeDelay => s.pwr.dozeDelay.setWidth 32
  | .rsvView n => s.rsvView n
  | .mediaStatus => s.mediaStatus
  | .rsvLost => s.rsvLost

/-- What a read at an address returns outside RESET_HELD; an undecoded address returns 0 (R11). -/
def State.readAddr (s : State) (a : WordAddr) : Word :=
  match regOf a with
  | some r => s.readReg r
  | none => 0

end Sys2Proof.Machine
end

