-- ==== Sys2Proof/Machine/Frames.lean ====
section
/-!
DEFINITION. The frames of the host port (chapter 1): the pin SELn, the decode of the type byte, the capture of a read word
with the side effect it determines (R8, R50, R51, R153), the completion of that side effect, and the guard and bookkeeping
of a completed write word (R7, R14).
-/

namespace Sys2Proof.Machine

/-! ### Words of a frame -/

/-- A frame of kind `t` is in progress and at least one of its words has not begun. -/
def Hpi.wordDue (h : Hpi) (t : FrameType) : Bool :=
  h.frame == some t && (h.phase == .header || h.phase == .data) && decide (0 < h.wordsDue)

/-- A word of the frame has begun (or, of a write frame, acted): the next address, one word fewer due (R6). -/
def Hpi.advance (h : Hpi) : Hpi :=
  { h with phase := .data, nextAddr := h.nextAddr + 1, wordsDue := h.wordsDue - 1 }

/-- A frame of kind `t` has begun its last word, so that what the host clocks next lies past it (R4, R5). -/
def Hpi.pastLast (h : Hpi) (t : FrameType) : Bool := h.frame == some t && h.phase == .data && h.wordsDue == 0

/-- The captured word still owes a side effect: no other word can begin before it completes (R9). -/
def Hpi.owes (h : Hpi) : Bool :=
  match h.captured with
  | some c => c.effect != .nothing && c.effect != .dropped
  | none => false

/-- The host can complete a write word at `addr` (R5, R6, R7). -/
def Hpi.acceptsWrite (h : Hpi) (addr : WordAddr) : Bool := h.wordDue .writeBurst && h.nextAddr == addr

/-- A completed write word at `addr` (R7): one unit. In RESET_HELD only PORT_CONFIG acts (R14). A word that no write frame
could complete now cannot occur, and changes nothing (log 12). -/
def writeAt (addr : WordAddr) (act : State → State) (s : State) : State :=
  if s.hpi.acceptsWrite addr then
    let s := { s with hpi := s.hpi.advance }
    endUnit (if s.held && addr != 0x02 then s else act s)
  else s

/-! ### Frame commands -/

/-- The HPI serves no frame: RESETn is low, or a POR or PIN reset is in progress (R3, R13, R184). -/
def State.portDead (s : State) : Bool := s.rst.resetnLow || s.rst.inReset.isSome

/-- SELn falls (R4). -/
def frameStartOp (s : State) : State :=
  if s.hpi.selected then s
  else
    { s with hpi := { s.hpi with
        selected := true, phase := if s.portDead then .discarding else .typeByte, frame := none, nextAddr := 0
        wordsDue := 0, snapshot := none, captured := none, sdo := .low } }

/-- A burst frame of kind `t` (R5): `len` requests len + 1 words from `addr` on. -/
def beginBurst (t : FrameType) (addr : WordAddr) (len : Byte) (s : State) : State :=
  { s with hpi := { s.hpi with
      phase := .header, frame := some t, nextAddr := addr, wordsDue := len.toNat + 1 } }

/-- The frame is discarded (R4). -/
def discardFrame (s : State) : State := { s with hpi := { s.hpi with phase := .discarding } }

/-- The decode of the type byte (R4). -/
def typeDecode (typeByte : Byte) (addr : WordAddr) (len : Byte) (s : State) : State :=
  if s.hpi.phase = .typeByte then
    if typeByte = 0xA1 then beginBurst .readBurst addr len s
    else if typeByte = 0xA2 then beginBurst .writeBurst addr len s
    else if typeByte = 0xA5 then
      { s with hpi := { s.hpi with phase := .header, frame := some .statePoll, wordsDue := 1 } }
    else discardFrame (reject .badFrame 0 typeByte s)
  else s

/-- The host clocks on past the last word of a read or poll frame, whose bits have all gone out: no access is performed, and
SDO carries 0 (R3, R4, R5). -/
def clockPast (s : State) : State := { s with hpi := { s.hpi with captured := none, sdo := .low } }

/-- The one word of a STATE POLL frame (R4, R184); once it has been driven, the bits that are clocked past it (log 2). -/
def pollWord (s : State) : State :=
  if s.hpi.wordDue .statePoll then
    { s with hpi := { s.hpi with phase := .data, wordsDue := 0, sdo := .bits s.deviceState } }
  else if s.hpi.pastLast .statePoll then clockPast s
  else s

/-- SELn rises: the frame ends, an incomplete word loses its effect, and the snapshot with it (R5, R7, R8, R12). -/
def frameEndOp (s : State) : State :=
  if s.hpi.selected then
    { s with hpi := { s.hpi with
        selected := false, phase := .idle, frame := none, wordsDue := 0, snapshot := none, captured := none
        sdo := .highZ } }
  else s

/-! ### The capture of a read word -/

/-- What a capture takes: the value that is shifted out, and the side effect that completion brings. -/
structure Capture where
  value : Word
  effect : ReadEffect
  deriving DecidableEq, Repr

/-- The capture of CLAIM (R153). -/
def State.captureClaim (s : State) : Capture :=
  match s.ntc.claimable with
  | none => { value := s.claimValue, effect := .nothing }
  | some w =>
    if Config.stackDepth ≤ s.ntc.stack.length then { value := s.claimValue, effect := .raiseF1 }
    else { value := s.claimValue, effect := .pushClaim (s.ntc.claimLevel w) }

/-- The next word of slot `n`'s OUT phase (R50). -/
def State.nextOutWord (s : State) (n : Fin 8) : Word := (s.wordsOf n).getD (s.consumedOf n) 0

/-- The capture of DATA_PORT (R50, R51) when its check finds nothing. -/
def State.captureData (s : State) : Capture :=
  match s.dp.owner with
  | none => { value := 0, effect := .strayReject 0 }
  | some n =>
    if (s.slot n).state = .unloading then { value := s.nextOutWord n, effect := .consumeWord }
    else { value := 0, effect := .strayReject (BitVec.ofNat 8 (s.slot n).desc.cmd.code) }

/-- The capture of a word at `addr` that does not serve a snapshot (R8). In RESET_HELD only DEVICE_STATE and PORT_CONFIG
return their values (R14). -/
def State.captureOf (s : State) (addr : WordAddr) : Capture :=
  if s.held then { value := if addr == 0x01 || addr == 0x02 then s.readAddr addr else 0, effect := .nothing }
  else
    match regOf addr with
    | some .claim => s.captureClaim
    | some .dataPort => s.captureData
    | _ => { value := s.readAddr addr, effect := .nothing }

/-- The snapshot that serves an address: 0x10 to 0x13 of a frame that took one (R12). -/
def Hpi.snapshotWord (h : Hpi) (addr : WordAddr) : Option Word :=
  match h.snapshot, regOf addr with
  | some w, some (.ch n) => some (w.word n)
  | _, _ => none

/-- The snapshot is taken at the capture of the first word of a READ BURST that begins at 0x10 (R12), also where a reset has
fallen between the frame's header and that capture (log 48). -/
def takeSnapshot (s : State) : State :=
  if s.hpi.phase = .header && s.hpi.nextAddr == 0x10 && !s.held then
    { s with hpi := { s.hpi with snapshot := some s.headWords } }
  else s

/-- The integrity check at the capture of a DATA_PORT word in an OUT phase finds the word bad (R53, R54). -/
def State.badCapture (s : State) (bad : Bool) : Option (Fin 8) :=
  if bad && !s.held && isDataPortAddr s.hpi.nextAddr then
    match s.dp.owner with
    | some n => if (s.slot n).state = .unloading then some n else none
    | none => none
  else none

/-- Capture the next word of the frame. -/
def captureWord (s : State) : State :=
  let addr := s.hpi.nextAddr
  let c : Capture := match s.hpi.snapshotWord addr with
    | some v => { value := v, effect := .nothing }
    | none => s.captureOf addr
  { s with hpi := { s.hpi.advance with
      captured := some { addr := addr, value := c.value, effect := c.effect }, sdo := .bits c.value } }

/-- READ_WORD_CAPTURE (R8). A bad word of an OUT phase ends its slot, and the read is stray from then on (R54). After the last
word the frame has requested, it stands for the bits that are clocked past that word (R5, log 2). -/
def captureOp (bad : Bool) (s : State) : State :=
  if s.hpi.owes then s
  else if s.hpi.wordDue .readBurst then
    match s.badCapture bad with
    | some n => captureWord (readBufferError n s)
    | none => captureWord (takeSnapshot s)
  else if s.hpi.pastLast .readBurst then clockPast s
  else s

/-! ### The completion of a read word with a side effect -/

/-- The captured word has been shifted out. -/
def wordDone (s : State) : State := { s with hpi := { s.hpi with captured := none, sdo := .low } }

/-- Count one consumed word in slot `n`'s buffer. -/
def bumpConsumed (n : Fin 8) (s : State) : State :=
  match s.bufOf n with
  | some b => setBuf b { s.buf b with consumed := (s.buf b).consumed + 1 } s
  | none => s

/-- A DATA_PORT word of the owner's OUT phase is consumed (R50); the last one ends the slot. -/
def consumeData (s : State) : State :=
  match s.dp.owner with
  | some n =>
    if (s.slot n).state = .unloading then
      let s := bumpConsumed n s
      if s.wordsRemaining n = 0 then
        completeSlot n (s.slot n).status (s.consumedOf n / Config.folioWords) s
      else s
    else s
  | none => s

/-- The claim that a completed CLAIM read makes (R153). -/
def pushClaim (newLevel : Nat) (s : State) : State :=
  { s with ntc := { s.ntc with stack := s.ntc.level :: s.ntc.stack, level := newLevel } }

/-- The side effect of a captured word, as the capture determined it (R8). -/
def applyEffect (e : ReadEffect) (s : State) : State :=
  match e with
  | .nothing => s
  | .dropped => s
  | .consumeWord => consumeData s
  | .strayReject code => reject .strayData 0x19 code s
  | .pushClaim newLevel => pushClaim newLevel s
  | .raiseF1 => setFault .f1 s

/-- The completion of a captured word at an address that `p` selects. -/
def completeWord (p : WordAddr → Bool) (s : State) : State :=
  match s.hpi.captured with
  | some c => if p c.addr then endUnit (applyEffect c.effect (wordDone s)) else s
  | none => s

/-! ### Meanings -/

/-- FRAME_START (R4). -/
def execFrameStart (s : State) : Host.Outcome State Fault Refusal := .next (frameStartOp (caughtUp s))

/-- FRAME_TYPE_DECODE (R4, R5). -/
def execFrameTypeDecode (typeByte : Byte) (addr : WordAddr) (len : Byte) (s : State) :
    Host.Outcome State Fault Refusal := .next (endUnit (typeDecode typeByte addr len (caughtUp s)))

/-- STATE_POLL (R4). -/
def execStatePoll (s : State) : Host.Outcome State Fault Refusal := .next (pollWord (caughtUp s))

/-- READ_WORD_CAPTURE (R8). -/
def execReadWordCapture (bad : Bool) (s : State) : Host.Outcome State Fault Refusal :=
  .next (endUnit (captureOp bad (caughtUp s)))

/-- FRAME_END (R7). -/
def execFrameEnd (s : State) : Host.Outcome State Fault Refusal := .next (frameEndOp (caughtUp s))

/-- DATA_PORT_READ (R50). -/
def execDataPortRead (s : State) : Host.Outcome State Fault Refusal :=
  .next (completeWord isDataPortAddr (caughtUp s))

/-- CLAIM (R153). -/
def execClaim (s : State) : Host.Outcome State Fault Refusal := .next (completeWord (fun a => a == 0x24) (caughtUp s))

end Sys2Proof.Machine
end

