-- ==== Sys2Proof/Machine/MediaEvents.lean ====
section
/-!
DEFINITION. The events of the media port and of the engines behind it: the grant (R135), the completion of reads (R126) and
programs (R117, R145), failures (R129, R130) and abandoned operations (R131), the Writeback Engine's capture and completion
(R91, R93), reclaim (R123 to R125) and relocation (R128).
-/

namespace Sys2Proof.Machine

/-! ### Requests -/

/-- Begin an operation at the port. -/
def grant (req : Requester) (op : MediaOp) (s : State) : State :=
  { s with mm := { s.mm with port := some { req := req, op := op, ticks := 0 } } }

/-- Begin a program at the next free position of group `g`. -/
def grantProgram (req : Requester) (g : Nat) (p : Prog) (s : State) : State := grant req (.program (s.nextLoc g) p) s

/-- Begin the erase of group `g`, which carries the erasing mark from now on (R139). -/
def grantErase (req : Requester) (g : Nat) (s : State) : State :=
  grant req (.erase g) (putGroup g { s.group g with erasing := true } s)

/-- The port is free and the MM may make requests: no mount, the media on, the part IDLE or ACTIVE (R123, R128, R135). -/
def State.portOpen (s : State) : Bool := s.mm.port.isNone && s.mount.isNone && s.awake

/-- A read that an apply step requested finds its folio no longer MAPPED when it would begin: no operation is made, and the
step is answered as the entry requires (R88, R116). -/
def answerUnmapped (a : Apply) (f : Nat) (s : State) : State :=
  if a.kind = .prefetch then advancePrefetch a s else readMiss a f s

/-- The apply's requested operation begins (R135); the map is resolved now (R88). None where it is not ready. -/
def grantApply (s : State) : Option State :=
  match s.csq.apply with
  | none => none
  | some a =>
    match a.wait with
    | .forMedia (.fill l f) =>
      if (s.mapEntry f).state = .mapped then (s.mapEntry f).target.map fun loc => grant .apply (.read loc) s
      else some (answerUnmapped a f (invalidate l s))
    | .forMedia (.direct f) =>
      if (s.mapEntry f).state = .mapped then (s.mapEntry f).target.map fun loc => grant .apply (.read loc) s
      else some (answerUnmapped a f s)
    | .forMedia (.prog p) =>
      if s.frozen && a.heldRetry then none else s.mm.hostOpen.map fun g => grantProgram .apply g p s
    | .between => none
    | .forLine => none
    | .forReclaim => none
    | .forSleep => none

/-- The ticket's program begins (R92). -/
def grantTicket (s : State) : Option State :=
  match s.fc.ticket with
  | some t => s.mm.hostOpen.map fun g => grantProgram .wbe g t.prog s
  | none => none

/-- Reclaim's next operation begins (R125): the waiting copy; the read of the next valid folio, or the copy of a note from
the MM's own record; or the erase. -/
def grantReclaim (s : State) : Option State :=
  match s.mm.victim with
  | none => none
  | some v =>
    match v.copy with
    | some c => s.mm.reclaimOpen.map fun g => grantProgram .reclaim g c.prog s
    | none =>
      if v.pos < Config.groupFolios then
        let loc := v.group * Config.groupFolios + v.pos
        match s.cell loc with
        | none => none
        | some c =>
          if c.metadata.kind = .trimNote || c.metadata.kind = .commitNote then
            s.mm.reclaimOpen.map fun g =>
              grantProgram .reclaim g (c.copyProg false)
                { s with mm := { s.mm with victim := some { v with copy := some { src := loc, prog := c.copyProg false } } } }
          else some (grant .reclaim (.read loc) s)
      else some (grantErase .reclaim v.group s)

/-- Relocation's next operation begins (R128): the waiting copy, or the oldest entry, which leaves the queue at this moment
and is read if its location is still valid. -/
def grantRelocation (s : State) : Option State :=
  match s.mm.relocCopy with
  | some c => s.mm.reclaimOpen.map fun g => grantProgram .relocation g c.prog s
  | none =>
    match s.mm.relocQueue with
    | [] => none
    | loc :: rest =>
      let s' := { s with mm := { s.mm with relocQueue := rest } }
      some (if s.validLoc loc then grant .relocation (.read loc) s' else s')

/-- The grant in the order of R135. While the part is frozen only the apply's operation can be granted. -/
def grantFirst (s : State) : State :=
  if s.frozen then (grantApply s).getD s
  else
    let candidates :=
      if s.foreground then [grantReclaim s, grantApply s, grantTicket s, grantRelocation s]
      else [grantApply s, grantTicket s, grantReclaim s, grantRelocation s]
    (candidates.findSome? id).getD s

/-- MEDIA_PORT_GRANT (R135). Outside a freeze reclaim first passes over what is no longer valid (R125). -/
def portGrant (s : State) : State :=
  if s.portOpen then grantFirst (if s.frozen then s else reclaimProgress s) else s

/-! ### Reads -/

/-- The number of bits that a read corrected. -/
def correctedBits : ReadResult → Nat
  | .clean => 0
  | .corrected n => n
  | .uncorrectable => 0

/-- What the media reports for a location: the copy of an uncorrectable folio reads as uncorrectable again (R125). -/
def State.resultAt (s : State) (loc : Loc) (r : ReadResult) : ReadResult :=
  match s.cell loc with
  | some c => if c.rotten then .uncorrectable else r
  | none => r

/-- The data stored at a location. -/
def State.dataAt (s : State) (loc : Loc) : FolioData :=
  match s.cell loc with
  | some c => c.data
  | none => []

/-- A media read places corrected data for a READ (R61): CORRECTED, and the largest number of corrected bits in detail. -/
def noteCorrection (n : Fin 8) (bits : Nat) (s : State) : State :=
  if bits = 0 then s
  else
    modSlot n (fun sl =>
      { sl with flags := { sl.flags with corrected := true }, detail := BitVec.ofNat 32 (max sl.detail.toNat bits) }) s

/-- An apply's read corrected more than 28 bits: its location is offered to relocation (R126, R127). -/
def offerWorn (loc : Loc) (bits : Nat) (s : State) : State :=
  if Config.relocationThreshold < bits then offerRelocation loc s else s

/-- A correctable read of an apply step (R61, R70, R88). -/
def applyReadGood (a : Apply) (r : MediaReq) (bits : Nat) (data : FolioData) (s : State) : State :=
  match r with
  | .fill l _ =>
    let s := fillLine l data s
    if a.kind = .prefetch then advancePrefetch a (modSlot a.slot (fun sl => { sl with detail := sl.detail + 1 }) s)
    else advanceRead a (placeFolio a.slot data (noteCorrection a.slot bits s))
  | .direct _ => advanceRead a (placeFolio a.slot data (noteCorrection a.slot bits s))
  | .prog _ => s

/-- An uncorrectable read of an apply step, after the MM has poisoned the folio (R62, R70, R88). -/
def applyReadBad (a : Apply) (r : MediaReq) (s : State) : State :=
  match r with
  | .fill l f =>
    let s := invalidate l s
    if a.kind = .prefetch then advancePrefetch a s else readUnreadable a f s
  | .direct f => readUnreadable a f s
  | .prog _ => s

/-- A read that an apply step requested has its result (R126). -/
def applyRead (loc : Loc) (r : ReadResult) (s : State) : State :=
  match s.csq.apply with
  | none => s
  | some a =>
    match a.wait with
    | .forMedia q =>
      if r = .uncorrectable then applyReadBad a q (poisonTarget loc s)
      else applyReadGood a q (correctedBits r) (s.dataAt loc) (offerWorn loc (correctedBits r) s)
    | .between => s
    | .forLine => s
    | .forReclaim => s
    | .forSleep => s

/-- A read whose command a partial reset removed (R178): its data is placed nowhere, and the MM handles its result. -/
def orphanRead (loc : Loc) (r : ReadResult) (s : State) : State :=
  if r = .uncorrectable then poisonTarget loc s else offerWorn loc (correctedBits r) s

/-- The copy that a read of reclaim or relocation prepares (R125, R128). -/
def State.copyOf (s : State) (loc : Loc) (rotten : Bool) : Option Copy :=
  (s.cell loc).map fun c => { src := loc, prog := c.copyProg rotten }

/-- A read of reclaim (R125): the copy carries the corrected data, or the data exactly as stored. -/
def reclaimRead (loc : Loc) (r : ReadResult) (s : State) : State :=
  let s := if r = .uncorrectable then poisonTarget loc s else s
  match s.mm.victim with
  | some v =>
    { s with mm := { s.mm with victim := some { v with copy := s.copyOf loc (r == .uncorrectable) } } }
  | none => s

/-- A read of relocation (R128): no copy of an uncorrectable folio is made. -/
def relocationRead (loc : Loc) (r : ReadResult) (s : State) : State :=
  if r = .uncorrectable then poisonTarget loc s
  else { s with mm := { s.mm with relocCopy := s.copyOf loc false } }

/-- A folio read at the port has its result (R126). A metadata read of a mount has its own row. -/
def readResult (req : Requester) (loc : Loc) (r : ReadResult) (s : State) : State :=
  let r := s.resultAt loc r
  let s := countRead r (clearPort s)
  match req with
  | .apply => applyRead loc r s
  | .orphan => orphanRead loc r s
  | .reclaim => reclaimRead loc r s
  | .relocation => relocationRead loc r s
  | .wbe => s
  | .mount => s

/-- MEDIA_READ_COMPLETE (R126). -/
def readComplete (r : ReadResult) (s : State) : State :=
  match s.mm.port with
  | some op =>
    match op.op with
    | .read loc => if op.req = .mount then s else readResult op.req loc r s
    | .program _ _ => s
    | .erase _ => s
  | none => s

/-! ### Programs of an apply -/

/-- A write-through folio has been programmed (R67, R117): the offer, and the cache update if it was accepted. -/
def throughLanded (a : Apply) (loc : Loc) (p : Prog) (s : State) : State :=
  let f := p.metadata.start
  let accepted := s.offerAccepted f p.metadata.seq
  let s := offerData f p.metadata.seq loc s
  let s := if accepted then cacheUpdate f p.data s else s
  advanceWrite a (modSlot a.slot (fun sl => { sl with detail := p.metadata.seq }) s)

/-- The offers of an atomic WRITE, in range order (R145 step 3); the positions accepted so far. -/
def atomicOffers (start : Nat) (base : Word) : List (Nat × Loc) → List Nat × State → List Nat × State
  | [], r => r
  | (i, loc) :: rest, (accepted, s) =>
    let seq := base + BitVec.ofNat 32 i
    let r := if s.offerAccepted (start + i) seq then accepted ++ [i] else accepted
    atomicOffers start base rest (r, offerData (start + i) seq loc s)

/-- The commit note has been programmed (R145 step 3): the offers, the note's record, no pending folio; then the cache
updates, or the end of the WRITE in this unit when no offer was accepted (log 47). -/
def commitLanded (a : Apply) (loc : Loc) (p : Prog) (s : State) : State :=
  let d := (s.slot a.slot).desc
  let locs := (List.range a.pendingLocs.length).zip a.pendingLocs
  let r := atomicOffers d.folio a.seq0 locs ([], s)
  let note : CommitNote := { start := d.folio, count := d.count, base := a.seq0, seq := p.metadata.seq, loc := loc }
  let s := r.2
  let s := { s with mm := { s.mm with commitNotes := s.mm.commitNotes ++ [note] } }
  let s := modSlot a.slot (fun sl => { sl with detail := p.metadata.seq }) s
  let a := { a with step := a.step + 1, wait := .between, accepted := r.1, pendingLocs := [] }
  if r.1.isEmpty then finishCount a (setApply (some a) s) else setApply (some a) s

/-- A tentative folio or the commit note of an atomic WRITE has been programmed (R145). -/
def atomicLanded (a : Apply) (loc : Loc) (p : Prog) (s : State) : State :=
  if a.step < s.applyCount a then nextStep { a with pendingLocs := a.pendingLocs ++ [loc] } s else commitLanded a loc p s

/-- A program that an apply step requested has completed (R117, R145). -/
def applyLanded (loc : Loc) (p : Prog) (s : State) : State :=
  match s.csq.apply with
  | none => s
  | some a =>
    match a.kind with
    | .writeThrough => throughLanded a loc p s
    | .writeAtomic => atomicLanded a loc p s
    | .trim => nextStep { a with noteLoc := some loc } s
    | .eraseAll => nextStep { a with noteLoc := some loc } s
    | .read | .writeCached | .prefetch | .discard | .clean | .flush | .purge | .sync | .describe | .healthCounters
    | .healthDefectList | .sleep => s

/-- MEDIA_PROGRAM_COMPLETE (R117). The program of a command that a partial reset removed ends without its completion mark
(R178). -/
def programComplete (s : State) : State :=
  match s.mm.port with
  | some op =>
    match op.op with
    | .program loc p =>
      if op.req = .apply then applyLanded loc p (landProgram loc p s)
      else if op.req = .orphan then tearProgram loc p s
      else s
    | .read _ => s
    | .erase _ => s
  | none => s

/-! ### Failures -/

/-- A program ended without success: its group is RETIRING and the retry waits at the port (R129, R131). The program of a
command that a partial reset removed leaves its position torn and nothing more, however it ends (R178). -/
def programLost (o : Origin) (req : Requester) (loc : Loc) (p : Prog) (s : State) : State :=
  if req = .orphan then tearProgram loc p s else failProgram o loc p s

/-- PROGRAM_FAIL (R129). -/
def programFailed (s : State) : State :=
  match s.mm.port with
  | some op =>
    match op.op with
    | .program loc p => programLost .programFail op.req loc p s
    | .read _ => s
    | .erase _ => s
  | none => s

/-- The retry of an apply's abandoned program waits until the freeze ends (R131, R145). -/
def holdRetry (req : Requester) (s : State) : State :=
  match s.csq.apply with
  | some a => if req = .apply then setApply (some { a with heldRetry := true }) s else s
  | none => s

/-! ### The Writeback Engine -/

/-- The WBE captures a ticket now (R90). -/
def State.wbeMayCapture (s : State) : Bool :=
  s.wbeRuns && s.fc.ticket.isNone && !s.frozen && s.mount.isNone && s.awake

/-- The ticket of line `l` (R91). -/
def State.ticketOf (s : State) (l : Fin 32) : Ticket :=
  { line := l, folio := (s.line l).folio, version := (s.line l).version, seq := s.mm.seq, data := (s.line l).data }

/-- Capture line `l` (R91): the ticket with the next sequence; the line leaves the dirty list and stays DIRTY. -/
def capture (l : Fin 32) (s : State) : State :=
  let t := s.ticketOf l
  let s := unlist l (setLine l { s.line l with voidTicket := false } s)
  let s := takeSeq 1 s
  { s with fc := { s.fc with ticket := some t } }

/-- WBE_CAPTURE (R91): the head of the dirty list is checked (R97) and captured, or lost (R99). -/
def wbeCaptureOp (bad : Bool) (s : State) : State :=
  if s.wbeMayCapture then
    match s.fc.dirtyList with
    | [] => s
    | l :: _ => if bad then dirtyLineError l s else capture l s
  else s

/-- TICKET_COMPLETE (R93). -/
def ticketLanded (s : State) : State :=
  match s.mm.port, s.fc.ticket with
  | some op, some t =>
    match op.op with
    | .program loc p => if op.req = .wbe then settleTicket t loc (landProgram loc p s) else s
    | .read _ => s
    | .erase _ => s
  | _, _ => s

/-! ### Reclaim and relocation -/

/-- RECLAIM_VICTIM_CHOICE (R124). -/
def chooseVictim (s : State) : State :=
  if s.reclaimPriority != .inactive && s.mm.victim.isNone && !s.frozen && s.mount.isNone && s.awake then
    match s.pickVictim with
    | some g => reclaimProgress { s with mm := { s.mm with victim := some { group := g, pos := 0, copy := none } } }
    | none => s
  else s

/-- RECLAIM_COPY_COMPLETE (R125, R118). -/
def reclaimCopied (s : State) : State :=
  match s.mm.port, s.mm.victim with
  | some op, some v =>
    match op.op, v.copy with
    | .program loc p, some c =>
      if op.req = .reclaim then
        let s := landCopy c.src loc (landProgram loc p s)
        reclaimProgress { s with mm := { s.mm with victim := some { v with pos := v.pos + 1, copy := none } } }
      else s
    | _, _ => s
  | _, _ => s

/-- RECLAIM_ERASE_COMPLETE (R125, R130). -/
def reclaimErased (ok : Bool) (s : State) : State :=
  match s.mm.port with
  | some op =>
    match op.op with
    | .erase g =>
      if op.req = .reclaim then
        if ok then endVictim g (eraseGroup g (clearPort s)) else failErase g .eraseFail s
      else s
    | .read _ => s
    | .program _ _ => s
  | none => s

/-- The source of a copy still holds the folio that was copied: its group has not been erased and programmed again since
(log 16). -/
def State.sourceStands (s : State) (c : Copy) : Bool :=
  match s.cell c.src with
  | some x => x.metadata.seq == c.prog.metadata.seq
  | none => false

/-- RELOCATION_COPY_COMPLETE (R128). -/
def relocationCopied (s : State) : State :=
  match s.mm.port, s.mm.relocCopy with
  | some op, some c =>
    match op.op with
    | .program loc p =>
      if op.req = .relocation then
        let s' := landProgram loc p s
        let s := if s.sourceStands c then landCopy c.src loc s' else s'
        let s := modHealth (fun h => { h with relocationsDone := saturating h.relocationsDone 1 }) s
        setEvent .media { s with mm := { s.mm with relocCopy := none } }
      else s
    | .read _ => s
    | .erase _ => s
  | _, _ => s

/-! ### Meanings -/

/-- MEDIA_PORT_GRANT (R135). -/
def execMediaPortGrant (s : State) : Host.Outcome State Fault Refusal := .next (endUnit (portGrant (caughtUp s)))

/-- MEDIA_READ_COMPLETE (R126). -/
def execMediaReadComplete (r : ReadResult) (s : State) : Host.Outcome State Fault Refusal :=
  .next (endUnit (readComplete r (caughtUp s)))

/-- MEDIA_PROGRAM_COMPLETE (R117). -/
def execMediaProgramComplete (s : State) : Host.Outcome State Fault Refusal :=
  .next (endUnit (programComplete (caughtUp s)))

/-- PROGRAM_FAIL (R129). -/
def execProgramFail (s : State) : Host.Outcome State Fault Refusal := .next (endUnit (programFailed (caughtUp s)))

/-- WBE_CAPTURE (R91). -/
def execWbeCapture (bad : Bool) (s : State) : Host.Outcome State Fault Refusal :=
  .next (endUnit (wbeCaptureOp bad (caughtUp s)))

/-- TICKET_COMPLETE (R93). -/
def execTicketComplete (s : State) : Host.Outcome State Fault Refusal := .next (endUnit (ticketLanded (caughtUp s)))

/-- RECLAIM_VICTIM_CHOICE (R124). -/
def execReclaimVictimChoice (s : State) : Host.Outcome State Fault Refusal :=
  .next (endUnit (chooseVictim (caughtUp s)))

/-- RECLAIM_COPY_COMPLETE (R125). -/
def execReclaimCopyComplete (s : State) : Host.Outcome State Fault Refusal :=
  .next (endUnit (reclaimCopied (caughtUp s)))

/-- RECLAIM_ERASE_COMPLETE (R125). -/
def execReclaimEraseComplete (ok : Bool) (s : State) : Host.Outcome State Fault Refusal :=
  .next (endUnit (reclaimErased ok (caughtUp s)))

/-- RELOCATION_COPY_COMPLETE (R128). -/
def execRelocationCopyComplete (s : State) : Host.Outcome State Fault Refusal :=
  .next (endUnit (relocationCopied (caughtUp s)))

end Sys2Proof.Machine
end

