-- ==== Sys2Proof/Machine/MountEvents.lean ====
section
/-!
DEFINITION. The Mount Engine (chapter 8): the scan (R139 to R141), resolution (R142), the sequence counter (R143) and the
end of the mount (R144).
-/

namespace Sys2Proof.Machine

/-! ### The scan -/

/-- The operation of the Mount Engine in progress at the port. -/
def State.mountOpNow (s : State) : Option MediaOp :=
  match s.mm.port with
  | some op => if op.req = .mount then some op.op else none
  | none => none

/-- A position that is not erased has its class (R140). -/
def classify (loc : Loc) (c : ScanClass) (s : State) : State :=
  modMount (fun m =>
    { m with
      scanned := m.scanned ++ [(loc, c)]
      torn := (match c with | .torn _ => m.torn + 1 | .metadataError => m.torn | .complete => m.torn)
      metaErrors := if c = .metadataError then m.metaErrors + 1 else m.metaErrors
      firstMetaError := if c = .metadataError && m.firstMetaError.isNone then some loc else m.firstMetaError }) s

/-- The class of a programmed position (R140). One with a metadata error at an earlier mount has it at this one too (R143). -/
def Cell.scanClass (c : Cell) (readable : Bool) : ScanClass :=
  if !c.complete then .torn readable else if readable && !c.metaLost then .complete else .metadataError

/-- The scan of group `g` ends with `used` positions classified, past which its next free position stands (R141). A RETIRING
group stays RETIRING, one whose position 0 is erased is FREE; any other will be FULL, and is closed where erased positions
remain. -/
def endGroup (g used : Nat) (s : State) : State :=
  let s := putGroup g { s.group g with nextFree := used } s
  let s :=
    if used = 0 || (s.group g).state = .retiring then s
    else
      modMount (fun m =>
        { m with fullGroups := m.fullGroups ++ [g]
                 closed := if used < Config.groupFolios then m.closed + 1 else m.closed }) s
  mountGroup (g + 1) s

/-- A position was classified: the next position, or the end of the group. -/
def nextPosition (loc : Loc) (s : State) : State :=
  if loc % Config.groupFolios + 1 < Config.groupFolios then mountOp (.read (loc + 1)) s
  else endGroup (groupOf loc) Config.groupFolios s

/-- The metadata of a position has been read (R140). An erased position ends the scan of its group. -/
def scanPosition (loc : Loc) (readable : Bool) (s : State) : State :=
  match s.cell loc with
  | some c => nextPosition loc (classify loc (c.scanClass readable) s)
  | none => endGroup (groupOf loc) (loc % Config.groupFolios) s

/-- MOUNT_METADATA_READ_COMPLETE (R140). -/
def mountRead (readable : Bool) (s : State) : State :=
  match s.mountOpNow with
  | some (.read loc) => scanPosition loc readable (clearPort s)
  | some (.program _ _) => s
  | some (.erase _) => s
  | none => s

/-- A re-erase has ended (R139): the group is FREE with one more erase, or RETIRED with an origin; it is counted either way. -/
def reerased (g : Nat) (failure : Option Origin) (s : State) : State :=
  let s := modMount (fun m => { m with reerased := m.reerased + 1 }) (clearPort s)
  match failure with
  | none => mountGroup (g + 1) (eraseGroup g s)
  | some o => mountGroup (g + 1) (retireGroup g o s)

/-- MOUNT_REERASE_COMPLETE (R139). -/
def mountErased (ok : Bool) (s : State) : State :=
  match s.mountOpNow with
  | some (.erase g) => reerased g (if ok then none else some .eraseFail) s
  | some (.read _) => s
  | some (.program _ _) => s
  | none => s

/-! ### Resolution (R142) -/

/-- The complete positions of the scan, with their cells. -/
def State.completeCells (s : State) (m : Mount) : List (Loc × Cell) :=
  m.scanned.filterMap fun p =>
    if p.2 = .complete then (s.cell p.1).map fun c => (p.1, c) else none

/-- The commit note commits the tentative folio (R142). -/
def Metadata.commits (n t : Metadata) : Bool :=
  n.kind == .commitNote && n.base == t.base && decide (n.start ≤ t.start ∧ t.start < n.start + n.count)
    && n.seq == n.base + BitVec.ofNat 32 n.count

/-- The range of folios for which a complete position is a candidate (R142). -/
def candidateRange (all : List (Loc × Cell)) (d : Metadata) : Nat × Nat :=
  match d.kind with
  | .data => (d.start, 1)
  | .tentative => if all.any fun p => p.2.metadata.commits d then (d.start, 1) else (d.start, 0)
  | .trimNote => (d.start, d.count)
  | .commitNote => (d.start, 0)

/-- The entry that a winning position gives (R142). -/
def entryOf (loc : Loc) (d : Metadata) : MapEntry :=
  { state := if d.kind = .trimNote then .trimmed else .mapped, target := some loc, seq := d.seq }

/-- What orders the candidates of one folio (R142): sequence, copy_mark, location. -/
def candidateRank (loc : Loc) (d : Metadata) : List Nat := [d.seq.toNat, bit d.copyMark, loc]

/-- The rank of the candidate that an entry holds; NEVER ranks below every candidate. -/
def entryRank (all : List (Loc × Cell)) (e : MapEntry) : List Nat :=
  match e.target with
  | some loc =>
    match sparseGet loc all with
    | some c => candidateRank loc c.metadata
    | none => []
  | none => []

/-- The better of an entry and a candidate. -/
def betterEntry (all : List (Loc × Cell)) (loc : Loc) (d : Metadata) (e : MapEntry) : MapEntry :=
  if entryRank all e < candidateRank loc d then entryOf loc d else e

/-- Offer a candidate to every folio of a map. -/
def offerAll (all : List (Loc × Cell)) (loc : Loc) (d : Metadata) (m : FolioMap) : FolioMap :=
  let u := betterEntry all loc d m.unlisted
  { unlisted := u
    items := (m.items.map fun p => (p.1, betterEntry all loc d p.2)).filter fun p => p.2 != u }

/-- Offer a candidate to the folios of its range. -/
def offerCandidate (all : List (Loc × Cell)) (m : FolioMap) (p : Loc × Cell) : FolioMap :=
  let r := candidateRange all p.2.metadata
  if r.1 = 0 && r.2 = Config.numFolios then offerAll all p.1 p.2.metadata m
  else
    (List.range r.2).foldl
      (fun m i => m.put (r.1 + i) (betterEntry all p.1 p.2.metadata (m.entry (r.1 + i)))) m

/-- The map that resolution builds (R142). -/
def resolvedMap (all : List (Loc × Cell)) : FolioMap := all.foldl (offerCandidate all) .empty

/-- The note's sequence equals its base_sequence plus its count. -/
def Metadata.noteSound (n : Metadata) : Bool := n.kind == .commitNote && n.seq == n.base + BitVec.ofNat 32 n.count

/-- No copy of the same commit note is chosen over this one (R142: the copy mark, then the location). -/
def chosenNote (all : List (Loc × Cell)) (p : Loc × Cell) : Bool :=
  !all.any fun q =>
    q.2.metadata.kind == .commitNote && q.2.metadata.seq == p.2.metadata.seq
      && decide (candidateRank p.1 p.2.metadata < candidateRank q.1 q.2.metadata)

/-- The commit notes found, one for each program (R142); those without a live member are pruned once the map stands. -/
def foundNotes (all : List (Loc × Cell)) : List CommitNote :=
  (all.filter fun p => p.2.metadata.noteSound && chosenNote all p).map fun p =>
    { start := p.2.metadata.start, count := p.2.metadata.count, base := p.2.metadata.base, seq := p.2.metadata.seq
      loc := p.1 }

/-! ### The sequence counter (R143) -/

/-- The values that one scanned position contributes. -/
def State.seqValues (s : State) (all : List (Loc × Cell)) (p : Loc × ScanClass) : List Nat :=
  match p.2, s.cell p.1 with
  | .metadataError, _ => []
  | .torn false, _ => []
  | _, none => []
  | .complete, some c => contributed c.metadata
  | .torn true, some c => contributed c.metadata
where
  /-- The sequence of a position, and for a tentative folio that no complete note commits the reach of its atomic write. A
  torn member of a committed write is committed in this sense (log 22). -/
  contributed (d : Metadata) : List Nat :=
    if d.kind = .tentative && !all.any fun q => q.2.metadata.commits d then [d.seq.toNat, d.base.toNat + 16]
    else [d.seq.toNat]

/-- The value the counter is set to. -/
def State.mountSeq (s : State) (m : Mount) : Word :=
  match m.scanned.flatMap (s.seqValues (s.completeCells m)) with
  | [] => 1
  | v :: rest => BitVec.ofNat 32 (rest.foldl max v + 1)

/-! ### The end (R144) -/

/-- The metadata of a position is lost: no later mount takes it for a candidate either (R143). -/
def loseMetadata (loc : Loc) (s : State) : State :=
  match s.cell loc with
  | some c => { s with mm := { s.mm with flash := sparsePut loc { c with metaLost := true } s.mm.flash } }
  | none => s

/-- The metadata errors of a mount that has ended are lost for good; those of a mount that is abandoned leave nothing (R138,
log 45). -/
def loseErrors (m : Mount) (s : State) : State :=
  (m.scanned.filter fun p => p.2 == .metadataError).foldl (fun s p => loseMetadata p.1 s) s

/-- Step 1: the map, the note records, the group states and the sequence counter take effect; no group is open (R141), and
reclaim and relocation hold nothing; the metadata errors found are so for good (R143). -/
def mountResolve (m : Mount) (s : State) : State :=
  let all := s.completeCells m
  let seq := s.mountSeq m
  let s := m.fullGroups.foldl
    (fun s g => putGroup g { s.group g with state := .full, nextFree := Config.groupFolios } s) (loseErrors m s)
  pruneNotes { s with mm := { s.mm with
    map := resolvedMap all, commitNotes := foundNotes all, seq := seq, hostOpen := none, reclaimOpen := none
    victim := none, relocQueue := [], relocCopy := none } }

/-- Step 3: the thresholds (R133, R134). -/
def mountReserve (s : State) : State :=
  let s := if s.reserve ≤ Config.spareThreshold then setEvent .spare s else s
  if s.reserve ≤ Config.readOnlyThreshold then setEvent .rdOnly { s with mm := { s.mm with readOnly := true } }
  else { s with mm := { s.mm with readOnly := false } }

/-- Step 5: the counts of the mount (R79). -/
def mountCounts (m : Mount) (s : State) : State :=
  { s with mm := { s.mm with health :=
      { Health.zero with
        mountTorn := saturating 0 m.torn, mountMetaErrors := saturating 0 m.metaErrors
        mountReerased := saturating 0 m.reerased, mountClosed := saturating 0 m.closed } } }

/-- Steps 6 and 7: F2, or the collision it causes, after which SPARE and RDONLY are set again; then MOUNT. -/
def mountFault (m : Mount) (s : State) : State :=
  match m.firstMetaError with
  | some loc =>
    let collides := (s.collidesWith .f2).isSome
    let s := raiseMap loc s
    let s := if collides && s.reserve ≤ Config.spareThreshold then setEvent .spare s else s
    let s := if collides && s.reserve ≤ Config.readOnlyThreshold then setEvent .rdOnly s else s
    setEvent .mount s
  | none => setEvent .mount s

/-- MOUNT_END (R144): the unit that ends the mount, once every group has been scanned. -/
def mountFinish (s : State) : State :=
  match s.mount with
  | some m =>
    if m.phase = .resolution then
      let s := mountResolve m s
      let s := takeHostOpen (takeReclaimOpen s)
      let s := evalReclaim (mountReserve s)
      let s := mountFault m (mountCounts m s)
      { s with mount := none }
    else s
  | none => s

/-! ### Meanings -/

/-- MOUNT_METADATA_READ_COMPLETE (R140). -/
def execMountMetadataReadComplete (readable : Bool) (s : State) : Host.Outcome State Fault Refusal :=
  .next (endUnit (mountRead readable (caughtUp s)))

/-- MOUNT_REERASE_COMPLETE (R139). -/
def execMountReeraseComplete (ok : Bool) (s : State) : Host.Outcome State Fault Refusal :=
  .next (endUnit (mountErased ok (caughtUp s)))

/-- MOUNT_END (R144). -/
def execMountEnd (s : State) : Host.Outcome State Fault Refusal := .next (endUnit (mountFinish (caughtUp s)))

end Sys2Proof.Machine
end

