-- ==== Sys2Proof/Machine/PowerEvents.lean ====
section
/-!
DEFINITION. The events of the Power Manager and of time: the completion of a SLEEP (R81 step 4, R170), the media's readiness
(R171), the tick and its six pieces of work (R172), and the rows that are ticks with a named effect.
-/

namespace Sys2Proof.Machine

/-! ### SLEEP -/

/-- Slot `m` lets the SLEEP in slot `n` complete: FREE, DONE, or younger and QUEUED (R81 step 3). -/
def State.quiescent (s : State) (n m : Fin 8) : Bool :=
  m == n || (s.slot m).state == .free || (s.slot m).state == .done
    || ((s.younger n).contains m && (s.slot m).state == .queued)

/-- No ticket is in flight but a voided one whose program is in progress: the one ticket that SLEEP allows (R170, R173). -/
def State.ticketAtRest (s : State) : Bool :=
  match s.fc.ticket with
  | none => true
  | some t => (s.line t.line).voidTicket && (s.mm.port.map fun o => o.req) == some .wbe

/-- The SLEEP in slot `n` has done its waiting (R81 steps 2 and 3, and for the ticket R173, log 27); a freeze lets its step 4
not begin (log 13). -/
def State.sleepReady (s : State) (n : Fin 8) : Bool :=
  decide (s.dirtyCount = 0) && s.ticketAtRest && (List.finRange 8).all (s.quiescent n) && !s.frozen

/-- Some slot younger than `n` is QUEUED (R81 step 4, R82). -/
def State.youngerQueued (s : State) (n : Fin 8) : Bool :=
  (s.younger n).any fun m => (s.slot m).state == .queued

/-- Step 4 of a SLEEP (R81): SLEEP_SKIPPED, or the record and then the entry into SLEEP. -/
def completeSleep (n : Fin 8) (s : State) : State :=
  if s.youngerQueued n then finishApply n .ok 0 (modFlags n (fun f => { f with sleepSkipped := true }) s)
  else enterSleep (finishApply n .ok 0 s)

/-- SLEEP_COMPLETION (R81). -/
def sleepComplete (s : State) : State :=
  match s.csq.apply with
  | some a => if a.wait = .forSleep && s.sleepReady a.slot then completeSleep a.slot s else s
  | none => s

/-! ### Waking -/

/-- MEDIA_READY (R171): the media reports ready in WAKING. -/
def mediaReadyOp (s : State) : State :=
  if s.pwr.state = .waking && s.pwr.powerUp.isSome then finishWaking s else s

/-! ### The tick -/

/-- An operation is abandoned (R131): treated as failed or uncorrectable. A mount's read is a metadata error, and its
re-erase retires the group (R141). -/
def abandon (op : PortOp) (s : State) : State :=
  match op.op with
  | .program loc p => holdRetry op.req (programLost .stall op.req loc p s)
  | .erase g => if op.req = .mount then reerased g (some .stall) s else failErase g .stall s
  | .read loc =>
    if op.req = .mount then nextPosition loc (classify loc .metadataError (clearPort s))
    else readResult op.req loc .uncorrectable s

/-- F3 of an abandoned operation, after its treatment (R131); a mount remembers it (R141). -/
def raiseStall (s : State) : State := raiseHard .f3 (modMount (fun m => { m with raisedF3 := true }) s)

/-- The events MEDIA, SPARE and RDONLY, those that the treatment of an abandoned operation raises of its own. -/
def treatmentEvents : BitVec 9 := 0x070

/-- Which of those events the treatment of the abandoned operation causes. -/
def State.abandonEvents (s : State) (op : PortOp) : BitVec 9 :=
  (abandon op { s with ntc := { s.ntc with evPending := 0 } }).ntc.evPending &&& treatmentEvents

/-- An operation is abandoned: its treatment, then F3 (R131). When F3 collides, the events that the treatment caused are
pending after the COLLISION reset, since their cause lies in the reset unit (R164, log 35). A READ that the treatment ends has
its reservation entry before F3 breaks the entries (log 38). -/
def stallOp (op : PortOp) (s : State) : State :=
  let t := abandon op s
  let u := raiseStall t
  if (t.collidesWith .f3).isSome then
    { u with ntc := { u.ntc with evPending := u.ntc.evPending ||| s.abandonEvents op } }
  else u

/-- Step 1 (R131): the stall timer of the operation in progress. -/
def tickStall (s : State) : State :=
  match s.mm.port with
  | some op =>
    if Config.stallLimit < op.ticks + 1 then stallOp op s
    else { s with mm := { s.mm with port := some { op with ticks := op.ticks + 1 } } }
  | none => s

/-- Step 2 (R171): the stall timer of a WAKING power-up; an abandoned attempt raises F3 and a new one begins. -/
def tickPowerUp (s : State) : State :=
  match s.pwr.powerUp with
  | some t =>
    if Config.stallLimit < t + 1 then raiseHard .f3 { s with pwr := { s.pwr with powerUp := some 0 } }
    else { s with pwr := { s.pwr with powerUp := some (t + 1) } }
  | none => s

/-- The tick checks word `w` of buffer `b` (R53): its holder is LOADING or LOADED, or UNLOADING with the word not consumed. -/
def State.checksWord (s : State) (b : BufId) (n : Fin 8) (w : Nat) : Bool :=
  decide (w < (s.buf b).words.length)
    && ((s.slot n).state == .loading || (s.slot n).state == .loaded
      || ((s.slot n).state == .unloading && decide ((s.buf b).consumed ≤ w)))

/-- The first bad word the tick finds in buffer `b` ends its holder's command (R53 to R55). -/
def checkBuffer (b : BufId) (bad : Option Nat) (s : State) : State :=
  match bad, (s.buf b).holder with
  | some w, some n =>
    if s.checksWord b n w then
      if (s.slot n).state = .unloading then settleSlots (readBufferError n s) else settleSlots (writeBufferError n s)
    else s
  | _, _ => s

/-- Step 3 (R53): TB0, then TB1. -/
def tickBuffers (bad0 bad1 : Option Nat) (s : State) : State := checkBuffer .tb1 bad1 (checkBuffer .tb0 bad0 s)

/-- Step 4 (R157): a quiet count above 0 falls by one. -/
def tickQuiet (s : State) : State :=
  if s.ntc.quiet = 0 then s else { s with ntc := { s.ntc with quiet := s.ntc.quiet - 1 } }

/-- Step 5 (R158): a running coalescing timer advances, and announces at its limit. -/
def tickCoalesce (s : State) : State :=
  match s.ntc.timer with
  | some t =>
    if t.limit ≤ t.elapsed + 1 then announce s
    else { s with ntc := { s.ntc with timer := some { t with elapsed := t.elapsed + 1 } } }
  | none => s

/-- Step 6 (R167): the idle timer counts in IDLE without the intent, and arms the intent at the limit. -/
def tickIdle (s : State) : State :=
  if s.pwr.state = .idle && !s.pwr.intent then
    armIntent { s with pwr := { s.pwr with idleTimer := min Config.idleMax (s.pwr.idleTimer + 1) } }
  else s

/-- One tick (R172), its work in order. What step 1 settles comes before what step 3 ends (R35). A tick that has begun does
all of its work, also when its step 1 ends the last operation of SLEEP (log 40). -/
def tickOp (bad0 bad1 : Option Nat) (s : State) : State :=
  tickIdle (tickCoalesce (tickQuiet (tickBuffers bad0 bad1 (tickPowerUp (settleSlots (tickStall s))))))

/-- A tick, where the tick runs and `p` holds (log 14). -/
def tickWhen (p : State → Bool) (bad0 bad1 : Option Nat) (s : State) : State :=
  if s.ticking && p s then tickOp bad0 bad1 s else s

/-! ### Ticks with a named effect -/

/-- This tick abandons the operation in progress (R131). -/
def State.stallsNow (s : State) : Bool :=
  match s.mm.port with
  | some op => decide (Config.stallLimit < op.ticks + 1)
  | none => false

/-- This tick abandons the power-up in progress (R171). -/
def State.powerUpStallsNow (s : State) : Bool :=
  match s.pwr.powerUp with
  | some t => decide (Config.stallLimit < t + 1)
  | none => false

/-- This tick ends the quiet interval (R157). -/
def State.quietEndsNow (s : State) : Bool := s.ntc.quiet == 1

/-- This tick brings the coalescing timer to its limit (R158). -/
def State.timeoutNow (s : State) : Bool :=
  match s.ntc.timer with
  | some t => decide (t.limit ≤ t.elapsed + 1)
  | none => false

/-- This tick arms the doze intent (R167). -/
def State.armsNow (s : State) : Bool :=
  s.pwr.state == .idle && !s.pwr.intent && s.pwr.dozeDelay != 0
    && decide (s.pwr.dozeDelay.toNat * Config.dozeUnit ≤ min Config.idleMax (s.pwr.idleTimer + 1))

/-! ### Meanings -/

/-- SLEEP_COMPLETION (R81). -/
def execSleepCompletion (s : State) : Host.Outcome State Fault Refusal := .next (endUnit (sleepComplete (caughtUp s)))

/-- MEDIA_READY (R171). -/
def execMediaReady (s : State) : Host.Outcome State Fault Refusal := .next (endUnit (mediaReadyOp (caughtUp s)))

/-- TICK (R172). -/
def execTick (bad0 bad1 : Option Nat) (s : State) : Host.Outcome State Fault Refusal :=
  .next (endUnit (tickWhen (fun _ => true) bad0 bad1 (caughtUp s)))

/-- STALL_LIMIT (R131). -/
def execStallLimit (bad0 bad1 : Option Nat) (s : State) : Host.Outcome State Fault Refusal :=
  .next (endUnit (tickWhen State.stallsNow bad0 bad1 (caughtUp s)))

/-- POWERUP_STALL (R171). -/
def execPowerupStall (bad0 bad1 : Option Nat) (s : State) : Host.Outcome State Fault Refusal :=
  .next (endUnit (tickWhen State.powerUpStallsNow bad0 bad1 (caughtUp s)))

/-- QUIET_END (R157). -/
def execQuietEnd (bad0 bad1 : Option Nat) (s : State) : Host.Outcome State Fault Refusal :=
  .next (endUnit (tickWhen State.quietEndsNow bad0 bad1 (caughtUp s)))

/-- COALESCE_TIMEOUT (R158). -/
def execCoalesceTimeout (bad0 bad1 : Option Nat) (s : State) : Host.Outcome State Fault Refusal :=
  .next (endUnit (tickWhen State.timeoutNow bad0 bad1 (caughtUp s)))

/-- DOZE_INTENT_ARM (R167). -/
def execDozeIntentArm (bad0 bad1 : Option Nat) (s : State) : Host.Outcome State Fault Refusal :=
  .next (endUnit (tickWhen State.armsNow bad0 bad1 (caughtUp s)))

end Sys2Proof.Machine
end

