-- ==== Sys2Proof/Machine/ResetEvents.lean ====
section
/-!
DEFINITION. The resets that come from outside the host port (R175): the power supply and the pin RESETn. The resets that a
register write causes are in Machine/Writes.lean.
-/

namespace Sys2Proof.Machine

/-- The supply is stable: the POR ends and the mount begins (R175). -/
def porEndOp (s : State) : State :=
  if s.rst.inReset = some .por then startMount { s with rst := { s.rst with inReset := none } } else s

/-- RESETn goes low (R175). -/
def pinResetOp (s : State) : State :=
  if s.rst.resetnLow then s else fullReset .pin { s with rst := { s.rst with resetnLow := true } }

/-- RESETn goes high (R175): a PIN reset ends and the mount begins; a POR that superseded it does not end here. -/
def pinReleaseOp (s : State) : State :=
  if s.rst.resetnLow then
    let s := { s with rst := { s.rst with resetnLow := false } }
    if s.rst.inReset = some .pin then startMount { s with rst := { s.rst with inReset := none } } else s
  else s

/-! ### Meanings -/

/-- POR (R175): the supply rises, or power is lost. -/
def execPor (s : State) : Host.Outcome State Fault Refusal := .next (endUnit (fullReset .por (caughtUp s)))

/-- POR_END (R175). -/
def execPorEnd (s : State) : Host.Outcome State Fault Refusal := .next (endUnit (porEndOp (caughtUp s)))

/-- PIN_RESET (R175). -/
def execPinReset (s : State) : Host.Outcome State Fault Refusal := .next (endUnit (pinResetOp (caughtUp s)))

/-- PIN_RESET_RELEASE (R175). -/
def execPinResetRelease (s : State) : Host.Outcome State Fault Refusal := .next (endUnit (pinReleaseOp (caughtUp s)))

end Sys2Proof.Machine
end

