-- ==== Sys2Proof/Machine/Starts.lean ====
section
/-!
DEFINITION. The rows of the sequencer: the start of each kind of command (R27), the step of an apply (R28), the ends of its
waits (R66, R123), and the entry into DOZE (R169). A start, the end of a wait and the entry into DOZE are due steps (log 1):
such a row performs what is due before it, then its own step if that is what is due.
-/

namespace Sys2Proof.Machine

/-- Perform what is due until a step that `p` selects is due, or nothing is. -/
def settleUntil (p : State → Due → Bool) : Nat → State → State
  | 0, s => s
  | fuel + 1, s =>
    match s.due with
    | some d => if p s d then s else settleUntil p fuel (perform d false s)
    | none => s

/-- Perform the due step that is due, if `p` selects it. -/
def performIf (p : State → Due → Bool) (bad : Bool) (s : State) : State :=
  match s.due with
  | some d => if p s d then perform d bad s else s
  | none => s

/-- The row of a due step. -/
def dueRow (p : State → Due → Bool) (bad : Bool) (s : State) : State := performIf p bad (settleUntil p 24 s)

/-- The due step is the start of a command of kind `k`. -/
def startsKind (k : StartKind) (s : State) (d : Due) : Bool :=
  match d with
  | .start n => (s.slot n).desc.startKind s.fc.wt == k
  | .lineWaitEnd => false
  | .foregroundEnd => false
  | .dozeEntry => false

/-- The due step is `d`. -/
def isDue (d : Due) (_ : State) (e : Due) : Bool := e == d

/-- The current apply begins its next step (R28): it waits for nothing, and the part is not frozen. -/
def applyStepOp (bad : Bool) (s : State) : State :=
  match s.csq.apply with
  | some a => if a.wait = .between && !s.frozen then beginStep a bad s else s
  | none => s

/-! ### Meanings -/

/-- READ (R61). -/
def execRead (s : State) : Host.Outcome State Fault Refusal := .next (dueRow (startsKind .read) false s)

/-- WRITE_CACHED (R65). -/
def execWriteCached (bad : Bool) (s : State) : Host.Outcome State Fault Refusal :=
  .next (dueRow (startsKind .writeCached) bad s)

/-- WRITE_THROUGH (R67). -/
def execWriteThrough (bad : Bool) (s : State) : Host.Outcome State Fault Refusal :=
  .next (dueRow (startsKind .writeThrough) bad s)

/-- WRITE_ATOMIC (R68). -/
def execWriteAtomic (bad : Bool) (s : State) : Host.Outcome State Fault Refusal :=
  .next (dueRow (startsKind .writeAtomic) bad s)

/-- TRIM (R69). -/
def execTrim (s : State) : Host.Outcome State Fault Refusal := .next (dueRow (startsKind .trim) false s)

/-- PREFETCH (R70). -/
def execPrefetch (s : State) : Host.Outcome State Fault Refusal := .next (dueRow (startsKind .prefetch) false s)

/-- DISCARD (R71). -/
def execDiscard (s : State) : Host.Outcome State Fault Refusal := .next (dueRow (startsKind .discard) false s)

/-- CLEAN (R72). -/
def execClean (s : State) : Host.Outcome State Fault Refusal := .next (dueRow (startsKind .clean) false s)

/-- FLUSH (R72). -/
def execFlush (s : State) : Host.Outcome State Fault Refusal := .next (dueRow (startsKind .flush) false s)

/-- PURGE (R74). -/
def execPurge (s : State) : Host.Outcome State Fault Refusal := .next (dueRow (startsKind .purge) false s)

/-- SYNC (R76). -/
def execSync (s : State) : Host.Outcome State Fault Refusal := .next (dueRow (startsKind .sync) false s)

/-- DESCRIBE (R77). -/
def execDescribe (s : State) : Host.Outcome State Fault Refusal := .next (dueRow (startsKind .describe) false s)

/-- HEALTH_COUNTERS (R78). -/
def execHealthCounters (s : State) : Host.Outcome State Fault Refusal :=
  .next (dueRow (startsKind .healthCounters) false s)

/-- HEALTH_DEFECT_LIST (R80). -/
def execHealthDefectList (s : State) : Host.Outcome State Fault Refusal :=
  .next (dueRow (startsKind .healthDefectList) false s)

/-- SLEEP (R81). -/
def execSleep (s : State) : Host.Outcome State Fault Refusal := .next (dueRow (startsKind .sleep) false s)

/-- ERASE_ALL (R83). -/
def execEraseAll (s : State) : Host.Outcome State Fault Refusal := .next (dueRow (startsKind .eraseAll) false s)

/-- APPLY_STEP (R28). -/
def execApplyStep (bad : Bool) (s : State) : Host.Outcome State Fault Refusal :=
  .next (endUnit (applyStepOp bad (caughtUp s)))

/-- LINE_WAIT_END (R66). -/
def execLineWaitEnd (s : State) : Host.Outcome State Fault Refusal := .next (dueRow (isDue .lineWaitEnd) false s)

/-- RECLAIM_FOREGROUND_END (R123). -/
def execReclaimForegroundEnd (s : State) : Host.Outcome State Fault Refusal :=
  .next (dueRow (isDue .foregroundEnd) false s)

/-- DOZE_ENTRY (R169). -/
def execDozeEntry (s : State) : Host.Outcome State Fault Refusal := .next (dueRow (isDue .dozeEntry) false s)

end Sys2Proof.Machine
end

