-- ==== Sys2Proof/Machine/Writes.lean ====
section
/-!
DEFINITION. What a completed write word does to each register: submission (R20 to R22), ABORT (R41, R42), RETIRE (R40),
DATA_PORT (R49, R51), the registers of the NTC (R149 to R159), CACHE_POLICY (R94), DOZE_DELAY (R167), HOST_CONTROL (R181),
PORT_CONFIG (R175), REJECT_LOG (R15) and the staging words (R18); and the meanings of the rows that write a register.
-/

namespace Sys2Proof.Machine

/-! ### Submission -/

/-- The record of a newly accepted command (R23). -/
def Slot.accepted (d : Desc) : Slot := { Slot.free with state := .queued, desc := d }

/-- An accepted submission (R22): the slot record, the run queue, the Power Manager. Buffer assignment and the sequencer
follow at the unit's end. -/
def acceptCommand (n : Fin 8) (d : Desc) (s : State) : State :=
  let s := setSlot n (Slot.accepted d) s
  submitPower { s with csq := { s.csq with runQueue := s.csq.runQueue ++ [n] } }

/-- The outcome of the seven checks of R21, in their order: a reject, or the slot and the descriptor. -/
def State.submitChecks (s : State) (w : Word) : RejectReason ⊕ (Fin 8 × Desc) :=
  let cd0 := s.csq.cd[0]
  if h : field w 0 8 < 8 then
    let n : Fin 8 := ⟨field w 0 8, h⟩
    if (s.slot n).state != .free then .inl .slotBusy
    else
      match cmdOfCode (cmdField cd0).toNat with
      | none => .inl .badCommand
      | some c =>
        let d := descOf c cd0 s.csq.cd[1] s.csq.cd[2] s.csq.cd[3]
        match d.check with
        | some r => .inl r
        | none => .inr (n, d)
  else .inl .badSlot

/-- A write to SUBMIT (R20): the reserved bits, the seven checks, the acceptance. -/
def submitWrite (w : Word) (s : State) : State :=
  if !clearIn 0xFFFFFF00 w then badValue 0x0C s
  else
    match s.submitChecks w with
    | .inl r => reject r (w.extractLsb' 0 8) (cmdField s.csq.cd[0]) s
    | .inr (n, d) => acceptCommand n d s

/-! ### ABORT and RETIRE -/

/-- The purge marks that slot `n` owns are removed (R42). -/
def dropMarks (n : Fin 8) (s : State) : State :=
  { s with fc := { s.fc with
      lines := vecMap (fun l => if l.purgeMark = some n then { l with purgeMark := none } else l) s.fc.lines } }

/-- ABORT of a valid slot (R42). -/
def abortSlot (n : Fin 8) (s : State) : State :=
  match (s.slot n).state with
  | .free => s
  | .queued => completeSlot n .aborted 0 s
  | .loading => completeSlot n .aborted 0 s
  | .loaded => completeSlot n .aborted 0 s
  | .applying => modSlot n (fun sl => { sl with lateAbort := true }) s
  | .settling => completeSlot n .aborted (s.slot n).foliosDone (dropMarks n s)
  | .unloading => completeSlot n .aborted (s.consumedOf n / Config.folioWords) s
  | .done => s

/-- A write to ABORT (R41). -/
def abortWrite (w : Word) (s : State) : State :=
  if !clearIn 0xFFFFFF00 w then badValue 0x0D s
  else if h : field w 0 8 < 8 then abortSlot ⟨field w 0 8, h⟩ s
  else reject .badSlot (w.extractLsb' 0 8) 0 s

/-- The head record leaves the completion queue, its slot the run queue (R40). -/
def retireHead (s : State) : State :=
  match s.csq.completions with
  | [] => s
  | c :: rest =>
    let s := setSlot c.slot Slot.free s
    { s with csq := { s.csq with completions := rest, runQueue := s.csq.runQueue.erase c.slot } }

/-- A write to RETIRE (R40). -/
def retireWrite (w : Word) (s : State) : State := if w != 0 then badValue 0x15 s else retireHead s

/-! ### DATA_PORT -/

/-- Append a word to slot `n`'s buffer. -/
def appendWord (n : Fin 8) (w : Word) (s : State) : State :=
  match s.bufOf n with
  | some b => setBuf b { s.buf b with words := (s.buf b).words ++ [w] } s
  | none => s

/-- A word of the owner's IN phase is stored; after the last one the slot is LOADED and the port is released (R49). -/
def storeWord (n : Fin 8) (w : Word) (s : State) : State :=
  let s := appendWord n w s
  if s.wordsRemaining n = 0 then
    let s := modSlot n (fun sl => { sl with state := .loaded }) s
    { s with dp := { s.dp with owner := none } }
  else s

/-- A write to DATA_PORT (R49, R51). -/
def dataWrite (w : Word) (s : State) : State :=
  match s.dp.owner with
  | none => reject .strayData 0x19 0 s
  | some n =>
    if (s.slot n).state = .loading then storeWord n w s
    else reject .strayData 0x19 (BitVec.ofNat 8 (s.slot n).desc.cmd.code) s

/-! ### The Notification Controller -/

/-- A write to EV_PENDING clears flags (R149). -/
def evPendingWrite (w : Word) (s : State) : State :=
  if legalEventBits w then { s with ntc := { s.ntc with evPending := s.ntc.evPending &&& ~~~(w.extractLsb' 0 9) } }
  else badValue 0x20 s

/-- A write to EV_ENABLE replaces the nine enables (R149). -/
def evEnableWrite (w : Word) (s : State) : State :=
  if legalEventBits w then { s with ntc := { s.ntc with evEnable := w.extractLsb' 0 9 } } else badValue 0x21 s

/-- A write to EV_LEVEL replaces the nine levels (R149). -/
def evLevelWrite (w : Word) (s : State) : State :=
  if legalEvLevel w then { s with ntc := { s.ntc with evLevel := w.extractLsb' 0 27 } } else badValue 0x22 s

/-- A write to FAULT_PENDING clears flags (R150). -/
def faultPendingWrite (w : Word) (s : State) : State :=
  if legalFaultPending w then { s with ntc := { s.ntc with faults := s.ntc.faults &&& ~~~(w.extractLsb' 0 4) } }
  else badValue 0x23 s

/-- A write to END pops the service stack, or raises F1 (R154). -/
def endOp (w : Word) (s : State) : State :=
  if w != 0 then badValue 0x25 s
  else
    match s.ntc.stack with
    | [] => setFault .f1 s
    | l :: rest => { s with ntc := { s.ntc with level := l, stack := rest } }

/-- A SERVICE write is accepted (R155); the depth field is not checked (R183). -/
def State.serviceLegal (s : State) (w : Word) : Bool :=
  clearIn 0xFFFFF8F0 w && !s.ntc.nestOff && decide (s.ntc.level ≤ 6 ∧ field w 0 4 ≤ 6)

/-- A write to SERVICE sets the current level (R155). -/
def serviceOp (w : Word) (s : State) : State :=
  if s.serviceLegal w then { s with ntc := { s.ntc with level := field w 0 4 } } else badValue 0x26 s

/-- A write to NTC_CONFIG (R156). -/
def ntcConfigWrite (w : Word) (s : State) : State :=
  if clearIn 0xFFFFFFFE w then { s with ntc := { s.ntc with nestOff := w.getLsbD 0 } } else badValue 0x27 s

/-- A write to QUIET ends or extends the interval (R157). -/
def quietOp (w : Word) (s : State) : State :=
  let v := w.extractLsb' 0 12
  if !clearIn 0xFFFFF000 w then badValue 0x28 s
  else if v == 0 || decide (s.ntc.quiet.toNat < v.toNat) then { s with ntc := { s.ntc with quiet := v } }
  else s

/-- A write to COALESCE replaces T and the timeout, and announces when U is at least the new T (R159). -/
def coalesceOp (w : Word) (s : State) : State :=
  if legalCoalesce w then
    let s := { s with ntc := { s.ntc with threshold := w.extractLsb' 0 4, timeout := w.extractLsb' 8 8 } }
    if field w 0 4 ≤ s.ntc.unannounced then announce s else s
  else badValue 0x29 s

/-! ### Cache policy and power -/

/-- A write to CACHE_POLICY (R94); the draining indication is evaluated at the unit's end. -/
def cachePolicyOp (w : Word) (s : State) : State :=
  if legalCachePolicy w then
    { s with fc := { s.fc with high := w.extractLsb' 0 6, low := w.extractLsb' 8 6, wt := w.getLsbD 16 } }
  else badValue 0x30 s

/-- A write to DOZE_DELAY (R167). -/
def dozeDelayOp (w : Word) (s : State) : State :=
  if !clearIn 0xFFFFFF00 w then badValue 0x32 s
  else
    let s := { s with pwr := { s.pwr with dozeDelay := w.extractLsb' 0 8 } }
    if s.pwr.dozeDelay = 0 then { s with pwr := { s.pwr with intent := false, idleTimer := 0 } } else armIntent s

/-! ### HOST_CONTROL, PORT_CONFIG, REJECT_LOG and the staging words -/

/-- A write to HOST_CONTROL (R181): NEN, then CRST, or else WAKE. -/
def hostControlOp (w : Word) (s : State) : State :=
  if !clearIn 0xFFFFFFF8 w then badValue 0x03 s
  else
    let s := { s with rst := { s.rst with nen := w.getLsbD 0 } }
    if w.getLsbD 2 then partialReset .controller none s
    else if w.getLsbD 1 then wakeAction s
    else s

/-- A write to PORT_CONFIG (R175). In RESET_HELD an illegal value has no effect and records nothing (R14). -/
def portConfigOp (w : Word) (s : State) : State :=
  if !clearIn 0xFFFFFFFE w then badValue 0x02 s
  else if w.getLsbD 0 then if s.held then s else fullReset .port s
  else if s.held then startMount { s with rst := { s.rst with portReset := false } }
  else s

/-- A write to REJECT_LOG (R15). -/
def rejectLogOp (w : Word) (s : State) : State :=
  if !clearIn 0xE0 w then badValue 0x05 s
  else if w.getLsbD 4 then { s with hpi := { s.hpi with log := .empty } }
  else s

/-- A write to a staging word (R18). -/
def cdOp (n : Fin 4) (w : Word) (s : State) : State :=
  if n = 0 && !clearIn cd0Reserved w then badValue 0x08 s
  else { s with csq := { s.csq with cd := s.csq.cd.set n.val w n.isLt } }

/-! ### Every register -/

/-- A write to a register by its access type (R182): a read-only register ignores it. -/
def writeReg (r : Reg) (w : Word) (s : State) : State :=
  match r with
  | .deviceId => s
  | .deviceState => s
  | .portConfig => portConfigOp w s
  | .hostControl => hostControlOp w s
  | .resetCause => s
  | .rejectLog => rejectLogOp w s
  | .cd n => cdOp n w s
  | .submit => submitWrite w s
  | .abort => abortWrite w s
  | .slotState => s
  | .runOrder => s
  | .ch _ => s
  | .cqStatus => s
  | .retire => retireWrite w s
  | .dataOwner => s
  | .dataPort => dataWrite w s
  | .evPending => evPendingWrite w s
  | .evEnable => evEnableWrite w s
  | .evLevel => evLevelWrite w s
  | .faultPending => faultPendingWrite w s
  | .claim => s
  | .endReg => endOp w s
  | .service => serviceOp w s
  | .ntcConfig => ntcConfigWrite w s
  | .quiet => quietOp w s
  | .coalesce => coalesceOp w s
  | .cachePolicy => cachePolicyOp w s
  | .cacheStatus => s
  | .dozeDelay => dozeDelayOp w s
  | .rsvView _ => s
  | .mediaStatus => s
  | .rsvLost => s

/-- A write at an address; at an undecoded one it has no effect (R11). -/
def writeAddr (addr : WordAddr) (w : Word) (s : State) : State :=
  match regOf addr with
  | some r => writeReg r w s
  | none => s

/-- The address of staging word `n`. -/
def cdAddr (n : Fin 4) : WordAddr := BitVec.ofNat 16 (8 + n.val)

/-! ### Meanings -/

/-- REGISTER_WRITE (R17). -/
def execRegisterWrite (addr : WordAddr) (w : Word) (s : State) : Host.Outcome State Fault Refusal :=
  .next (writeAt addr (writeAddr addr w) (caughtUp s))

/-- REJECT_LOG_CLEAR (R15). -/
def execRejectLogClear (w : Word) (s : State) : Host.Outcome State Fault Refusal :=
  .next (writeAt 0x05 (rejectLogOp w) (caughtUp s))

/-- CD_WRITE (R18). -/
def execCdWrite (n : Fin 4) (w : Word) (s : State) : Host.Outcome State Fault Refusal :=
  .next (writeAt (cdAddr n) (cdOp n w) (caughtUp s))

/-- SUBMIT (R20). -/
def execSubmit (w : Word) (s : State) : Host.Outcome State Fault Refusal :=
  .next (writeAt 0x0C (submitWrite w) (caughtUp s))

/-- ABORT (R42). -/
def execAbort (w : Word) (s : State) : Host.Outcome State Fault Refusal :=
  .next (writeAt 0x0D (abortWrite w) (caughtUp s))

/-- RETIRE (R40). -/
def execRetire (w : Word) (s : State) : Host.Outcome State Fault Refusal :=
  .next (writeAt 0x15 (retireWrite w) (caughtUp s))

/-- DATA_PORT_WRITE (R49): at 0x19 or an alias (R10). -/
def execDataPortWrite (addr : WordAddr) (w : Word) (s : State) : Host.Outcome State Fault Refusal :=
  .next (if isDataPortAddr addr then writeAt addr (dataWrite w) (caughtUp s) else caughtUp s)

/-- EV_PENDING_CLEAR (R149). -/
def execEvPendingClear (w : Word) (s : State) : Host.Outcome State Fault Refusal :=
  .next (writeAt 0x20 (evPendingWrite w) (caughtUp s))

/-- FAULT_PENDING_CLEAR (R150). -/
def execFaultPendingClear (w : Word) (s : State) : Host.Outcome State Fault Refusal :=
  .next (writeAt 0x23 (faultPendingWrite w) (caughtUp s))

/-- END (R154). -/
def execEndWrite (w : Word) (s : State) : Host.Outcome State Fault Refusal :=
  .next (writeAt 0x25 (endOp w) (caughtUp s))

/-- SERVICE_WRITE (R155). -/
def execServiceWrite (w : Word) (s : State) : Host.Outcome State Fault Refusal :=
  .next (writeAt 0x26 (serviceOp w) (caughtUp s))

/-- QUIET_WRITE (R157). -/
def execQuietWrite (w : Word) (s : State) : Host.Outcome State Fault Refusal :=
  .next (writeAt 0x28 (quietOp w) (caughtUp s))

/-- COALESCE_WRITE (R159). -/
def execCoalesceWrite (w : Word) (s : State) : Host.Outcome State Fault Refusal :=
  .next (writeAt 0x29 (coalesceOp w) (caughtUp s))

/-- CACHE_POLICY_WRITE (R94). -/
def execCachePolicyWrite (w : Word) (s : State) : Host.Outcome State Fault Refusal :=
  .next (writeAt 0x30 (cachePolicyOp w) (caughtUp s))

/-- DOZE_DELAY_WRITE (R167). -/
def execDozeDelayWrite (w : Word) (s : State) : Host.Outcome State Fault Refusal :=
  .next (writeAt 0x32 (dozeDelayOp w) (caughtUp s))

/-- WAKE (R171): the rule of HOST_CONTROL (R181) on a word that sets WAKE. -/
def execWake (w : Word) (s : State) : Host.Outcome State Fault Refusal :=
  .next (writeAt 0x03 (hostControlOp w) (caughtUp s))

/-- NEN_WRITE (R181): the rule of HOST_CONTROL on a word that sets neither WAKE nor CRST. -/
def execNenWrite (w : Word) (s : State) : Host.Outcome State Fault Refusal :=
  .next (writeAt 0x03 (hostControlOp w) (caughtUp s))

/-- CONTROLLER_RESET (R177): the rule of HOST_CONTROL (R181) on a word that sets CRST. -/
def execControllerReset (w : Word) (s : State) : Host.Outcome State Fault Refusal :=
  .next (writeAt 0x03 (hostControlOp w) (caughtUp s))

/-- PORT_RESET (R175): the rule of PORT_CONFIG on a word that sets RESET. -/
def execPortReset (w : Word) (s : State) : Host.Outcome State Fault Refusal :=
  .next (writeAt 0x02 (portConfigOp w) (caughtUp s))

/-- PORT_RESET_RELEASE (R175): the rule of PORT_CONFIG on a word with RESET 0. -/
def execPortResetRelease (w : Word) (s : State) : Host.Outcome State Fault Refusal :=
  .next (writeAt 0x02 (portConfigOp w) (caughtUp s))

end Sys2Proof.Machine
end

