-- ==== Sys2Proof/Machine/Dispatch.lean ====
section
/-!
DEFINITION. The meaning of every command: one arm per constructor of Instr, each one direct call.
-/

namespace Sys2Proof.Machine

def exec (i : Instr) (s : State) : Host.Outcome State Fault Refusal :=
  match i with
  | .frameTypeDecode typeByte addr len => Sys2Proof.Machine.execFrameTypeDecode typeByte addr len s
  | .statePoll => Sys2Proof.Machine.execStatePoll s
  | .readWordCapture bad => Sys2Proof.Machine.execReadWordCapture bad s
  | .frameEnd => Sys2Proof.Machine.execFrameEnd s
  | .registerWrite addr w => Sys2Proof.Machine.execRegisterWrite addr w s
  | .rejectLogClear w => Sys2Proof.Machine.execRejectLogClear w s
  | .cdWrite n w => Sys2Proof.Machine.execCdWrite n w s
  | .submit w => Sys2Proof.Machine.execSubmit w s
  | .abort w => Sys2Proof.Machine.execAbort w s
  | .retire w => Sys2Proof.Machine.execRetire w s
  | .dataPortWrite addr w => Sys2Proof.Machine.execDataPortWrite addr w s
  | .dataPortRead => Sys2Proof.Machine.execDataPortRead s
  | .read => Sys2Proof.Machine.execRead s
  | .writeCached bad => Sys2Proof.Machine.execWriteCached bad s
  | .writeThrough bad => Sys2Proof.Machine.execWriteThrough bad s
  | .writeAtomic bad => Sys2Proof.Machine.execWriteAtomic bad s
  | .trim => Sys2Proof.Machine.execTrim s
  | .prefetch => Sys2Proof.Machine.execPrefetch s
  | .discard => Sys2Proof.Machine.execDiscard s
  | .clean => Sys2Proof.Machine.execClean s
  | .flush => Sys2Proof.Machine.execFlush s
  | .purge => Sys2Proof.Machine.execPurge s
  | .sync => Sys2Proof.Machine.execSync s
  | .describe => Sys2Proof.Machine.execDescribe s
  | .healthCounters => Sys2Proof.Machine.execHealthCounters s
  | .healthDefectList => Sys2Proof.Machine.execHealthDefectList s
  | .sleep => Sys2Proof.Machine.execSleep s
  | .eraseAll => Sys2Proof.Machine.execEraseAll s
  | .applyStep bad => Sys2Proof.Machine.execApplyStep bad s
  | .lineWaitEnd => Sys2Proof.Machine.execLineWaitEnd s
  | .reclaimForegroundEnd => Sys2Proof.Machine.execReclaimForegroundEnd s
  | .mediaPortGrant => Sys2Proof.Machine.execMediaPortGrant s
  | .mediaReadComplete result => Sys2Proof.Machine.execMediaReadComplete result s
  | .mediaProgramComplete => Sys2Proof.Machine.execMediaProgramComplete s
  | .programFail => Sys2Proof.Machine.execProgramFail s
  | .wbeCapture bad => Sys2Proof.Machine.execWbeCapture bad s
  | .ticketComplete => Sys2Proof.Machine.execTicketComplete s
  | .sleepCompletion => Sys2Proof.Machine.execSleepCompletion s
  | .dozeEntry => Sys2Proof.Machine.execDozeEntry s
  | .mediaReady => Sys2Proof.Machine.execMediaReady s
  | .wake w => Sys2Proof.Machine.execWake w s
  | .nenWrite w => Sys2Proof.Machine.execNenWrite w s
  | .controllerReset w => Sys2Proof.Machine.execControllerReset w s
  | .portReset w => Sys2Proof.Machine.execPortReset w s
  | .portResetRelease w => Sys2Proof.Machine.execPortResetRelease w s
  | .por => Sys2Proof.Machine.execPor s
  | .porEnd => Sys2Proof.Machine.execPorEnd s
  | .pinReset => Sys2Proof.Machine.execPinReset s
  | .pinResetRelease => Sys2Proof.Machine.execPinResetRelease s
  | .mountMetadataReadComplete readable => Sys2Proof.Machine.execMountMetadataReadComplete readable s
  | .mountReeraseComplete ok => Sys2Proof.Machine.execMountReeraseComplete ok s
  | .mountEnd => Sys2Proof.Machine.execMountEnd s
  | .tick bad0 bad1 => Sys2Proof.Machine.execTick bad0 bad1 s
  | .stallLimit bad0 bad1 => Sys2Proof.Machine.execStallLimit bad0 bad1 s
  | .powerupStall bad0 bad1 => Sys2Proof.Machine.execPowerupStall bad0 bad1 s
  | .quietEnd bad0 bad1 => Sys2Proof.Machine.execQuietEnd bad0 bad1 s
  | .coalesceTimeout bad0 bad1 => Sys2Proof.Machine.execCoalesceTimeout bad0 bad1 s
  | .dozeIntentArm bad0 bad1 => Sys2Proof.Machine.execDozeIntentArm bad0 bad1 s
  | .evPendingClear w => Sys2Proof.Machine.execEvPendingClear w s
  | .faultPendingClear w => Sys2Proof.Machine.execFaultPendingClear w s
  | .claim => Sys2Proof.Machine.execClaim s
  | .endWrite w => Sys2Proof.Machine.execEndWrite w s
  | .serviceWrite w => Sys2Proof.Machine.execServiceWrite w s
  | .quietWrite w => Sys2Proof.Machine.execQuietWrite w s
  | .coalesceWrite w => Sys2Proof.Machine.execCoalesceWrite w s
  | .cachePolicyWrite w => Sys2Proof.Machine.execCachePolicyWrite w s
  | .dozeDelayWrite w => Sys2Proof.Machine.execDozeDelayWrite w s
  | .reclaimVictimChoice => Sys2Proof.Machine.execReclaimVictimChoice s
  | .reclaimCopyComplete => Sys2Proof.Machine.execReclaimCopyComplete s
  | .reclaimEraseComplete ok => Sys2Proof.Machine.execReclaimEraseComplete ok s
  | .relocationCopyComplete => Sys2Proof.Machine.execRelocationCopyComplete s
  | .frameStart => Sys2Proof.Machine.execFrameStart s

end Sys2Proof.Machine
end

