-- ==== Sys2Proof/Safety.lean ====
section
/-!
DEFINITION. The terms in which claims about the block are stated: when nothing is due, when the host port takes a written
word, and the invariants that every unit keeps.
-/

namespace Sys2Proof

/-- The rows of due steps: a start of the sequencer, the end of a wait, the entry into DOZE (log 1). -/
def Instr.isDueRow : Instr → Bool
  | .read => true
  | .writeCached _ => true
  | .writeThrough _ => true
  | .writeAtomic _ => true
  | .trim => true
  | .prefetch => true
  | .discard => true
  | .clean => true
  | .flush => true
  | .purge => true
  | .sync => true
  | .describe => true
  | .healthCounters => true
  | .healthDefectList => true
  | .sleep => true
  | .eraseAll => true
  | .lineWaitEnd => true
  | .reclaimForegroundEnd => true
  | .dozeEntry => true
  | _ => false

/-- The rows that are a completed write word with one address of their own, and that address. PORT_RESET and
PORT_RESET_RELEASE are left out: PORT_CONFIG is the one register that acts in RESET_HELD (R14). -/
def Instr.writeRow : Instr → Option WordAddr
  | .registerWrite addr _ => some addr
  | .rejectLogClear _ => some 0x05
  | .cdWrite n _ => some (BitVec.ofNat 16 (8 + n.val))
  | .submit _ => some 0x0C
  | .abort _ => some 0x0D
  | .retire _ => some 0x15
  | .wake _ => some 0x03
  | .nenWrite _ => some 0x03
  | .controllerReset _ => some 0x03
  | .evPendingClear _ => some 0x20
  | .faultPendingClear _ => some 0x23
  | .endWrite _ => some 0x25
  | .serviceWrite _ => some 0x26
  | .quietWrite _ => some 0x28
  | .coalesceWrite _ => some 0x29
  | .cachePolicyWrite _ => some 0x30
  | .dozeDelayWrite _ => some 0x32
  | .dataPortWrite addr _ => if isDataPortAddr addr then some addr else none
  | _ => none

end Sys2Proof

namespace Sys2Proof.Machine

/-! ### Register words -/

/-- A register word shows fields, each its value, its lowest bit and its length: the field holds as many low bits of the value
as it has, and every bit outside the fields reads 0 (R183). -/
abbrev Shows (w : Word) (fields : List (Nat × Nat × Nat)) : Prop :=
  (∀ f ∈ fields, field w f.2.1 f.2.2 = f.1 % 2 ^ f.2.2)
    ∧ ∀ i, (∀ f ∈ fields, i < f.2.1 ∨ f.2.1 + f.2.2 ≤ i) → w.getLsbD i = false

/-! ### States between units -/

/-- No step is due in the state (log 1). -/
abbrev State.AtRest (s : State) : Prop := s.due = none

/-- Nothing is due, and the host can complete a write word at `addr`. -/
abbrev State.Takes (s : State) (addr : WordAddr) : Prop := s.AtRest ∧ s.hpi.acceptsWrite addr = true

/-- As `Takes`, outside RESET_HELD. -/
abbrev State.Serves (s : State) (addr : WordAddr) : Prop := s.Takes addr ∧ s.held = false

/-- The state in which the port has counted the write word at hand (R6). -/
def State.counted (s : State) : State := { s with hpi := s.hpi.advance }

/-- The slot whose start is due, and by which row. -/
abbrev State.Starts (s : State) (n : Fin 8) (k : StartKind) : Prop :=
  s.due = some (.start n) ∧ (s.slot n).desc.startKind s.fc.wt = k

/-- The operation in progress at the media port. -/
abbrev State.PortRuns (s : State) (req : Requester) (op : MediaOp) : Prop :=
  s.AtRest ∧ ∃ ticks, s.mm.port = some { req := req, op := op, ticks := ticks }

/-! ### Invariants -/

/-- The configuration registers hold legal values (R94, R149, R159), and U stays below T (R158). -/
abbrev State.ConfigSound (s : State) : Prop :=
  (1 ≤ s.fc.high.toNat ∧ s.fc.high.toNat ≤ 32 ∧ s.fc.low.toNat < s.fc.high.toNat)
    ∧ (1 ≤ s.ntc.threshold.toNat ∧ s.ntc.threshold.toNat ≤ 8 ∧ s.ntc.unannounced < s.ntc.threshold.toNat)
    ∧ ∀ i < 9, s.ntc.levelOf i ≤ 6

/-- A claim fixed at its capture can still be made at its completion: the stack has room, and the level rises (R153). -/
def ReadEffect.claimSound (n : Ntc) : ReadEffect → Bool
  | .pushClaim v => decide (n.stack.length < Config.stackDepth ∧ n.level < v ∧ v ≤ 10)
  | .nothing => true
  | .consumeWord => true
  | .strayReject _ => true
  | .raiseF1 => true
  | .dropped => true

/-- A captured word belongs to a READ BURST frame, and what it claims can be claimed. -/
def State.captureSound (s : State) : Bool :=
  match s.hpi.captured with
  | some c => s.hpi.frame == some .readBurst && s.hpi.phase != .typeByte && c.effect.claimSound s.ntc
  | none => true

/-- The service stack (R153, R155): at most 6 entries, every level at most 10, and below a level of 6 or lower no stacked
level of 7 or more. -/
abbrev State.ServiceSound (s : State) : Prop :=
  s.ntc.stack.length ≤ Config.stackDepth ∧ (∀ l ∈ s.ntc.level :: s.ntc.stack, l ≤ 10)
    ∧ (s.ntc.level :: s.ntc.stack).Pairwise (fun a b => a ≤ 6 → b ≤ 6) ∧ s.captureSound = true

/-- The flash, the map and the group table stand in canonical form. -/
abbrev State.StoresSound (s : State) : Prop :=
  sparseWf s.mm.flash = true ∧ s.mm.map.wf = true ∧ sparseWf s.mm.groups = true
    ∧ ∀ p ∈ s.mm.groups, p.2 ≠ Group.fresh

/-- The slots, the run queue, the completion queue, the sequencer and the port owner agree (R24, R27, R35, R46): the run
queue lists the slots that are not FREE, each once; the completion queue holds exactly one record for each DONE slot; the
one APPLYING slot is the one whose apply is in progress; the port owner is LOADING or UNLOADING; only a WRITE is LOADING
(R25). -/
abbrev State.SlotsSound (s : State) : Prop :=
  s.csq.runQueue.Nodup ∧ (∀ n, n ∈ s.csq.runQueue ↔ (s.slot n).state ≠ .free)
    ∧ (s.csq.completions.map fun c => c.slot).Nodup
    ∧ (∀ n, n ∈ (s.csq.completions.map fun c => c.slot) ↔ (s.slot n).state = .done)
    ∧ (∀ n, (s.csq.apply.map fun a => a.slot) = some n ↔ (s.slot n).state = .applying)
    ∧ (∀ n, s.dp.owner = some n → (s.slot n).state = .loading ∨ (s.slot n).state = .unloading)
    ∧ ∀ n, (s.slot n).state = .loading → (s.slot n).desc.cmd = .write

end Sys2Proof.Machine
end

