-- ==== Sys2Proof/Certificates/Slice0/Obligations.lean ====
section
/-!
DEFINITION. The statements for the provers. A statement about a command gives the next state of exec as `endUnit u`: `u` is
the state the command itself leaves, written out as an update of the state before it, and `endUnit` makes the evaluations
with which every unit ends. What `endUnit` leaves alone, and what it brings about, are statements of their own
(UnitEndLeavesTheRest, PowerStateFollowsConditions, UnitEndSettlesAndGrantsThePort). A statement speaks of
states in which no step is due (`AtRest`) or of the step that is due; CommandsActOnCaughtUpStates and NothingStaysDue carry
it to every state.
-/

open Sys2Proof Sys2Proof.Machine

/-! ### The machine -/

/-- A step takes the command at the front of the queue and runs exec on it with the queue's rest; an empty queue idles (the
model's choice, log 15). -/
def Obligations.StepRunsFrontCommand : Prop :=
  (∀ (c : Instr) (s : State), step { s with pending := c :: s.pending } = exec c s)
    ∧ ∀ s : State, s.pending = [] → step s = .next s

/-- No command stops the machine, in any state. -/
def Obligations.EveryCommandAnswers : Prop := ∀ (c : Instr) (s : State), ∃ t, exec c s = .next t

/-- Every command but the rows of due steps acts on the state with what is due performed, and the row of a due step changes
nothing where none is due (the model's reading of "in the same unit", logs 1 and 12). -/
def Obligations.CommandsActOnCaughtUpStates : Prop :=
  ∀ (c : Instr) (s : State),
    (c.isDueRow = false → exec c s = exec c (caughtUp s)) ∧ (c.isDueRow = true → s.AtRest → exec c s = .next s)

/-- Performing what is due leaves nothing due (log 1). -/
def Obligations.NothingStaysDue : Prop := ∀ s : State, (caughtUp s).AtRest

/-- What the evaluations at the end of a unit leave alone, and the only ways in which they change a slot: a WRITE that
receives a buffer becomes LOADING (R33), a settling command whose condition holds enters DONE (R30): a CLEAN or FLUSH with no
triple left (R73), a PURGE whose mark no line carries (R75), a SYNC with no older slot that is not DONE (R76). And what they
do to the cache, the apply and the media's state: the draining indication begins above `high` and lasts while above `low`
(R90); a held retry is let go outside a freeze (R131; that it waits for the end of the freeze is read from the rule, log 31);
outside a mount and a reset the empty roles are given FREE groups of the lowest erase count, the reclaim open group first
(R121), the records of dead commit notes are forgotten (R122), and reclaim is active from below 12 FREE groups until 16
(R123). -/
def Obligations.UnitEndLeavesTheRest : Prop :=
  ∀ s : State,
    let t := endUnit s
    let met (n : Fin 8) : Prop :=
      ((s.slot n).desc.cmd ∈ [Cmd.clean, .flush] ∧ (s.slot n).triples = [])
        ∨ ((s.slot n).desc.cmd = .purge ∧ ∀ l, (s.line l).purgeMark ≠ some n)
        ∨ ((s.slot n).desc.cmd = .sync ∧ ∀ m ∈ s.csq.runQueue.takeWhile (· != n), (t.slot m).state = .done)
    t.hpi = s.hpi ∧ t.rvt = s.rvt ∧ t.mount = s.mount ∧ t.rst = s.rst ∧ t.pending = s.pending
      ∧ t.fc = { s.fc with draining := t.fc.draining }
      ∧ t.mm = { s.mm with
          groups := t.mm.groups, hostOpen := t.mm.hostOpen, reclaimOpen := t.mm.reclaimOpen
          commitNotes := t.mm.commitNotes, reclaimFill := t.mm.reclaimFill }
      ∧ t.ntc = { s.ntc with
          evPending := t.ntc.evPending, unannounced := t.ntc.unannounced, timer := t.ntc.timer }
      ∧ s.ntc.evPending &&& t.ntc.evPending = s.ntc.evPending
      ∧ t.csq.cd = s.csq.cd ∧ t.csq.runQueue = s.csq.runQueue ∧ s.csq.completions <+: t.csq.completions
      ∧ t.pwr.dozeDelay = s.pwr.dozeDelay ∧ t.pwr.intent = s.pwr.intent
      ∧ ∀ n, (t.slot n).desc = (s.slot n).desc
          ∧ (t.slot n = s.slot n
            ∨ ((s.slot n).state = .queued ∧ (s.slot n).desc.cmd = .write ∧ t.slot n = { s.slot n with state := .loading })
            ∨ ((s.slot n).state = .settling ∧ (t.slot n).state = .done ∧ (t.slot n).status = .ok ∧ met n))
      ∧ (t.fc.draining = true ↔ s.fc.high.toNat < s.dirtyCount
          ∨ (s.fc.draining = true ∧ s.fc.low.toNat < s.dirtyCount))
      ∧ (∀ a, s.csq.apply = some a → (s.slot a.slot).state ≠ .settling →
          t.csq.apply = some { a with heldRetry := a.heldRetry && s.frozen })
      ∧ (∀ a, t.csq.apply = some a → a.heldRetry = true → s.frozen = true)
      ∧ (s.csq.apply = none → t.csq.apply = none)
      ∧ (s.mount.isSome = true ∨ s.rst.portReset = true ∨ s.rst.inReset.isSome = true → t.mm = s.mm)
      ∧ (s.mount = none → s.rst.portReset = false → s.rst.inReset = none → s.StoresSound →
          (∀ p ∈ s.mm.groups, p.1 < 4096) →
        let free (g : Nat) : Prop := g < 4096 ∧ (s.group g).state = .free
        let toReclaim (g : Nat) : Prop := s.mm.reclaimOpen = none ∧ t.mm.reclaimOpen = some g
        let toHost (g : Nat) : Prop := s.mm.hostOpen = none ∧ t.mm.hostOpen = some g
        let first (g : Nat) (p : Nat → Prop) : Prop := p g ∧ ∀ h, p h →
          (s.group g).erases < (s.group h).erases ∨ ((s.group g).erases = (s.group h).erases ∧ g ≤ h)
        (∀ g, s.mm.reclaimOpen = some g → t.mm.reclaimOpen = some g)
          ∧ (∀ g, s.mm.hostOpen = some g → t.mm.hostOpen = some g)
          ∧ (∀ g, toReclaim g → first g free)
          ∧ (t.mm.reclaimOpen = none → ∀ g, ¬free g)
          ∧ (∀ g, toHost g → first g fun h => free h ∧ ¬toReclaim h)
          ∧ (t.mm.hostOpen = none ↔ s.mm.hostOpen = none
              ∧ ((List.range 4096).filter fun g => (s.group g).state == .free).length
                < if s.mm.reclaimOpen = none then 3 else 2)
          ∧ (∀ g, t.group g = { s.group g with state := if toReclaim g ∨ toHost g then .opened else (s.group g).state })
          ∧ (t.mm.reclaimFill = true ↔ t.freeCount < 12 ∨ (s.mm.reclaimFill = true ∧ t.freeCount < 16))
          ∧ List.Sublist t.mm.commitNotes s.mm.commitNotes
          ∧ ∀ r, r ∈ t.mm.commitNotes ↔ r ∈ s.mm.commitNotes ∧ ∃ l x, s.cell l = some x ∧ x.complete = true
              ∧ x.metadata.kind = .tentative ∧ x.metadata.base = r.base ∧ s.mm.map.targets l = true)

/-- After every unit the power state is the one whose condition holds, with slot work and engine work as R166 defines them (a
POR or PIN reset in progress counts as RESET_HELD, the model's choice of log 4). DOZE, SLEEP and WAKING last, but for a
WAKING that cancelled the media's power-down: it ends with the media operation that was in progress (R171). In SLEEP the
media is powered down with no operation in progress (R170; that an abandoned operation has ended too is log 24's reading,
that this is settled at the unit's end log 39's choice). -/
def Obligations.PowerStateFollowsConditions : Prop :=
  ∀ s : State,
    let t := endUnit s
    (t.pwr.state = .resetHeld ↔ t.rst.portReset = true ∨ t.rst.inReset.isSome = true)
      ∧ (t.pwr.state = .mounting ↔ t.rst.portReset = false ∧ t.rst.inReset = none ∧ t.mount.isSome = true)
      ∧ (t.pwr.state = .active → t.slotWork = true ∨ t.engineWork = true)
      ∧ (t.pwr.state = .idle → t.slotWork = false ∧ t.engineWork = false)
      ∧ (t.pwr.state = .sleep ∨ t.pwr.state = .doze ∨ t.pwr.state = .waking → t.pwr.state = s.pwr.state)
      ∧ (s.slotWork = true ↔ ∃ n, (s.slot n).state ∉ [SlotState.free, .done])
      ∧ (s.engineWork = true ↔ s.mm.port ≠ none ∨ (∃ a r, s.csq.apply = some a ∧ a.wait = .forMedia r)
          ∨ s.fc.ticket ≠ none ∨ (s.wbeRuns = true ∧ s.fc.dirtyList ≠ []) ∨ s.mm.victim ≠ none
          ∨ ((s.freeCount < 3 ∨ s.mm.reclaimFill = true ∨ s.groupsIn .retiring ≠ []) ∧ s.pickVictim ≠ none)
          ∨ s.mm.relocQueue ≠ [] ∨ s.mm.relocCopy ≠ none)
      ∧ let cancelled : Prop := s.pwr.state = .waking ∧ s.pwr.powerUp = none ∧ s.mm.port = none
        (s.pwr.state ∈ [.sleep, .doze, .waking] → ¬cancelled → s.rst.portReset = false → s.rst.inReset = none →
            s.mount = none → t.pwr.state = s.pwr.state)
          ∧ (cancelled → t.pwr.state ≠ .waking ∧ t.pwr.mediaOn = true ∧ t.pwr.powerUp = none ∧ t.pwr.idleTimer = 0
              ∧ t.ntc.pendingEvent .power = true)
          ∧ (¬cancelled → t.pwr.powerUp = s.pwr.powerUp ∧ t.ntc.pendingEvent .power = s.ntc.pendingEvent .power
              ∧ t.pwr.mediaOn = (s.pwr.mediaOn && !(s.pwr.state == .sleep && s.mm.port.isNone))
              ∧ t.pwr.idleTimer = if s.pwr.state = .idle ∧ t.pwr.state ≠ .idle then 0 else s.pwr.idleTimer)

/-- After every unit the port has no owner only while F4 is pending or no slot is eligible; a new owner is the oldest
eligible slot, chosen while F4 is not pending, and makes DATA pending (R47). And a slot that is SETTLING still waits: it
enters DONE in the unit in which its condition becomes true (R30), which for a CLEAN or FLUSH is that no triple is left
(R73), for a PURGE that no line carries its mark (R75), for a SYNC that every older slot is DONE (R76); those that end in one
unit do so in the order of the run queue, the SYNCs last (R35). Buffer assignment comes before both (R35): a free buffer, TB0
first, goes to the oldest data-bearing slot that is QUEUED without one, unless a SLEEP that is not DONE is older; a WRITE
that receives one is LOADING; none is left to give; none is given in a mount or a reset (R32, R33). -/
def Obligations.UnitEndSettlesAndGrantsThePort : Prop :=
  ∀ s : State,
    let t := endUnit s
    (∀ n, t.dp.owner = some n → s.dp.owner ≠ some n →
        t.portEligible n = true ∧ (∀ m ∈ t.older n, t.portEligible m = false)
          ∧ t.ntc.pendingFault .f4 = false ∧ t.ntc.pendingEvent .data = true)
      ∧ (t.dp.owner = none → t.ntc.pendingFault .f4 = false → ∀ m ∈ t.csq.runQueue, t.portEligible m = false)
      ∧ (∀ n ∈ t.csq.runQueue, (t.slot n).state = .settling → t.settleMet n = false)
      ∧ (∀ n, s.settleMet n = true ↔
        ((s.slot n).desc.cmd ∈ [Cmd.clean, .flush] ∧ (s.slot n).triples = [])
          ∨ ((s.slot n).desc.cmd = .purge ∧ ∀ l, (s.line l).purgeMark ≠ some n)
          ∨ ((s.slot n).desc.cmd = .sync ∧ ∀ m ∈ s.csq.runQueue.takeWhile (· != n), (s.slot m).state = .done))
      ∧ (∀ n, s.portEligible n = true ↔
        ((s.slot n).state = .loading ∧ (s.wordsOf n).length < (s.slot n).desc.count * 256)
          ∨ ((s.slot n).state = .unloading ∧ s.consumedOf n < (s.wordsOf n).length))
      ∧ (let ends (n : Fin 8) (u : State) : State :=
          if (u.slot n).state = .settling ∧ u.settleMet n = true then completeSlot n .ok (u.slot n).foliosDone u else u
        let sync (u : State) (n : Fin 8) : Prop := (u.slot n).desc.cmd = .sync
        let others : State := s.csq.runQueue.foldl (fun u n => if sync u n then u else ends n u) s
        settleSlots s = others.csq.runQueue.foldl (fun u n => if sync u n then ends n u else u) others)
      ∧ t = evalPower (settleMediaPower (chooseOwner (settleSlots (assignBuffers (evalDraining (evalMedia (releaseRetry s)))))))
      ∧ let waits (u : State) (n : Fin 8) : Prop :=
          (u.slot n).desc.cmd ∈ [Cmd.read, .write, .describe, .health] ∧ (u.slot n).state = .queued
            ∧ ∀ b, (u.buf b).holder ≠ some n
        let gives (u : State) (b : BufId) (n : Fin 8) : Prop :=
          u.mount = none ∧ u.rst.portReset = false ∧ u.rst.inReset = none
            ∧ (u.buf b).holder = none ∧ (b = .tb1 → (u.buf .tb0).holder ≠ none)
            ∧ ∃ older rest, u.csq.runQueue = older ++ n :: rest ∧ waits u n
              ∧ ∀ m ∈ older, ¬waits u m ∧ ((u.slot m).desc.cmd = .sleep → (u.slot m).state = .done)
        (∀ b n, gives s b n → assignOne s = setBuf b { holder := some n, words := [], consumed := 0 }
            (if (s.slot n).desc.cmd = .write then setSlot n { s.slot n with state := .loading } s else s))
          ∧ ((∀ b n, ¬gives s b n) → assignOne s = s)
          ∧ assignBuffers s = assignOne (assignOne s)
          ∧ ∀ b n, ¬gives (assignBuffers s) b n

/-! ### Invariants -/

/-- Every step keeps the configuration registers at legal values, and U below T. -/
def Obligations.StepKeepsConfigLegal : Prop :=
  ∀ s t : State, s.ConfigSound → step s = .next t → t.ConfigSound

/-- Every step keeps the service stack sound: at most 6 entries, and while the current level is 6 or lower, no stacked level
of 7 or more. -/
def Obligations.StepKeepsServiceStack : Prop :=
  ∀ s t : State, s.ConfigSound → s.ServiceSound → step s = .next t → t.ServiceSound

/-- Every step keeps the flash, the map and the group table in canonical form. -/
def Obligations.StepKeepsStoresCanonical : Prop :=
  ∀ s t : State, s.StoresSound → step s = .next t → t.StoresSound

/-- Every step keeps the slots, the run queue, the completion queue, the sequencer and the port owner in agreement: among
other things, the completion queue holds exactly one record for each DONE slot and no other records. -/
def Obligations.StepKeepsSlotsAgreed : Prop :=
  ∀ s t : State, s.SlotsSound → step s = .next t → t.SlotsSound

/-- The state after reset meets the four invariants. -/
def Obligations.ResetMeetsInvariants : Prop :=
  State.reset.ConfigSound ∧ State.reset.ServiceSound ∧ State.reset.StoresSound ∧ State.reset.SlotsSound

/-! ### Rules of the whole machine -/

/-- A writeback ticket in flight is ended by no command but the completion of its program and a full reset (R92). A full
reset is a POR, a PIN reset, or a write word at PORT_CONFIG. -/
def Obligations.TicketIsNeverCancelled : Prop :=
  ∀ (c : Instr) (s t : State) (k : Ticket),
    exec c s = .next t → s.fc.ticket = some k → c ≠ .ticketComplete → c ≠ .por → c ≠ .pinReset →
      (∀ w, c ≠ .portReset w) → (∀ w, c ≠ .portResetRelease w) → (∀ w, c ≠ .registerWrite 0x02 w) →
      t.fc.ticket = some k

/-- While the part is frozen and nothing is due, no apply step begins, the Writeback Engine captures nothing, reclaim takes
no victim, and the port grants only what the current apply step has requested (R161): the rows of these events change nothing
(the model's choice, log 12). -/
def Obligations.FreezeStopsTheEngines : Prop :=
  ∀ s : State, s.AtRest → s.frozen = true →
    (∀ bad, exec (.applyStep bad) s = .next (endUnit s)) ∧ (∀ bad, exec (.wbeCapture bad) s = .next (endUnit s))
      ∧ exec .reclaimVictimChoice s = .next (endUnit s) ∧ exec .sleepCompletion s = .next (endUnit s)
      ∧ exec .mediaPortGrant s = .next (endUnit (if s.portOpen then (grantApply s).getD s else s))
      ∧ ∀ u, grantApply s = some u → ∃ a r, s.csq.apply = some a ∧ a.wait = .forMedia r

/-- Register accesses, the data port, tickets, copies and the engines' bookkeeping leave the reservation table and RSV_LOST
alone. The words that make a reset are 1 at PORT_CONFIG and a legal word with CRST at HOST_CONTROL (R175, R181). -/
def Obligations.ReservationsSurviveOtherWork : Prop :=
  ∀ (c : Instr) (s t : State), s.AtRest → exec c s = .next t →
    (c ∈ [.statePoll, .frameEnd, .readWordCapture false, .dataPortRead, .mediaProgramComplete, .programFail,
        .wbeCapture false, .ticketComplete, .claim, .reclaimVictimChoice, .reclaimCopyComplete, .relocationCopyComplete,
        .frameStart, .mediaReady]
      ∨ (∃ b a l, c = .frameTypeDecode b a l) ∨ (∃ ok, c = .reclaimEraseComplete ok) ∨ (∃ n w, c = .cdWrite n w)
      ∨ ∃ w, c ∈ [.rejectLogClear w, .submit w, .abort w, .retire w, .evPendingClear w, .faultPendingClear w, .endWrite w,
          .serviceWrite w, .quietWrite w, .coalesceWrite w, .cachePolicyWrite w, .dozeDelayWrite w]
      ∨ (∃ a, c = .dataPortWrite a w)
      ∨ (w ≠ 1 ∧ c ∈ [.portReset w, .portResetRelease w])
      ∨ (¬(w.getLsbD 2 = true ∧ w.toNat < 8) ∧ c ∈ [.wake w, .nenWrite w, .controllerReset w])
      ∨ ∃ a, c = .registerWrite a w ∧ (a = 0x02 → w ≠ 1) ∧ (a = 0x03 → ¬(w.getLsbD 2 = true ∧ w.toNat < 8))) →
    t.rvt = s.rvt

/-! ### Frames and words -/

/-- SELn falling begins a frame, whose type byte comes next, unless the port serves none; SELn rising ends the frame with
whatever side effect was outstanding (R3, R4, R7, R8, R12). -/
def Obligations.SelectPinBracketsFrames : Prop :=
  ∀ s : State, s.AtRest →
    (s.hpi.selected = false →
        exec .frameStart s = .next { s with hpi := { s.hpi with
          selected := true
          phase := if s.rst.resetnLow = true ∨ s.rst.inReset.isSome = true then .discarding else .typeByte
          frame := none, nextAddr := 0, wordsDue := 0, snapshot := none, captured := none, sdo := .low } })
      ∧ (s.hpi.selected = true →
        exec .frameEnd s = .next { s with hpi := { s.hpi with
          selected := false, phase := .idle, frame := none, wordsDue := 0, snapshot := none, captured := none
          sdo := .highZ } })

/-- The type byte selects the frame (R4), and the header of a burst its first address and its number of words (R5); any
other byte is a BAD_FRAME reject, and the frame is discarded. -/
def Obligations.TypeByteSelectsFrame : Prop :=
  ∀ (s : State) (b : Byte) (addr : WordAddr) (len : Byte), s.AtRest → s.hpi.phase = .typeByte →
    (b = 0xA1 → exec (.frameTypeDecode b addr len) s = .next (endUnit { s with hpi := { s.hpi with
        phase := .header, frame := some .readBurst, nextAddr := addr, wordsDue := len.toNat + 1 } }))
      ∧ (b = 0xA2 → exec (.frameTypeDecode b addr len) s = .next (endUnit { s with hpi := { s.hpi with
        phase := .header, frame := some .writeBurst, nextAddr := addr, wordsDue := len.toNat + 1 } }))
      ∧ (b = 0xA5 → exec (.frameTypeDecode b addr len) s = .next (endUnit { s with hpi := { s.hpi with
        phase := .header, frame := some .statePoll, wordsDue := 1 } }))
      ∧ (b ≠ 0xA1 → b ≠ 0xA2 → b ≠ 0xA5 →
        exec (.frameTypeDecode b addr len) s =
          .next (endUnit (discardFrame (reject .badFrame 0 b s))))

/-- A STATE POLL frame drives DEVICE_STATE, with no side effect (R4), whose fields are those of Table 12-2; the bits clocked
past that word carry 0 (a row for which no word is due stands for them: the model's reading, log 2). -/
def Obligations.StatePollDrivesDeviceState : Prop :=
  ∀ s : State, s.AtRest →
    (s.hpi.wordDue .statePoll = true →
        exec .statePoll s = .next { s with hpi := { s.hpi with
          phase := .data, wordsDue := 0, sdo := .bits (s.readReg .deviceState) } })
      ∧ (s.hpi.frame = some .statePoll → s.hpi.phase = .data → s.hpi.wordsDue = 0 →
        exec .statePoll s = .next { s with hpi := { s.hpi with captured := none, sdo := .low } })
      ∧ (s.csq.completions.length ≤ 8 →
        field (s.readReg .deviceState) 0 3 = s.pwr.state.code
          ∧ (s.readReg .deviceState).getLsbD 3 = s.frozen ∧ (s.readReg .deviceState).getLsbD 4 = s.mm.readOnly
          ∧ (s.readReg .deviceState).getLsbD 5 = s.notifyLow ∧ (s.readReg .deviceState).getLsbD 6 = s.alertLow
          ∧ field (s.readReg .deviceState) 8 4 = s.csq.completions.length
          ∧ (s.readReg .deviceState).getLsbD 16 = s.ntc.evPending.getLsbD 3)

/-- The capture of a word takes the value of the addressed register and, but for DATA_PORT and CLAIM, brings no side effect
(R8); the words of a frame take consecutive addresses (R6); past the last word SDO carries 0 and no access is made (R5; a row
for which no word is due stands for those bits, and no word begins while one still owes its side effect: the model's readings,
logs 2 and 12). And what the registers return, field by field (Tables 1-1, 6-1, 6-3, 9-3 and 12-1). -/
def Obligations.CaptureTakesRegisterValue : Prop :=
  (∀ (s : State) (bad : Bool), s.AtRest →
    (s.hpi.owes = true → exec (.readWordCapture bad) s = .next (endUnit s))
      ∧ (s.hpi.owes = false → s.hpi.frame = some .readBurst → s.hpi.phase = .data → s.hpi.wordsDue = 0 →
        exec (.readWordCapture bad) s = .next (endUnit { s with hpi := { s.hpi with captured := none, sdo := .low } }))
      ∧ (s.hpi.owes = false → s.hpi.wordDue .readBurst = true → s.held = false →
        regOf s.hpi.nextAddr ≠ some .dataPort → regOf s.hpi.nextAddr ≠ some .claim →
        (s.hpi.snapshot = none ∨ ∀ n, regOf s.hpi.nextAddr ≠ some (.ch n)) →
        ¬(s.hpi.phase = .header ∧ s.hpi.nextAddr = 0x10) →
        exec (.readWordCapture bad) s = .next (endUnit { s with hpi := { s.hpi with
          phase := .data, nextAddr := s.hpi.nextAddr + 1, wordsDue := s.hpi.wordsDue - 1
          captured := some { addr := s.hpi.nextAddr, value := s.readAddr s.hpi.nextAddr, effect := .nothing }
          sdo := .bits (s.readAddr s.hpi.nextAddr) } })))
    ∧ (∀ p ∈ ([(0x00, .deviceId), (0x01, .deviceState), (0x02, .portConfig), (0x03, .hostControl), (0x04, .resetCause),
        (0x05, .rejectLog), (0x08, .cd 0), (0x09, .cd 1), (0x0A, .cd 2), (0x0B, .cd 3), (0x0C, .submit), (0x0D, .abort),
        (0x0E, .slotState), (0x0F, .runOrder), (0x10, .ch 0), (0x11, .ch 1), (0x12, .ch 2), (0x13, .ch 3),
        (0x14, .cqStatus), (0x15, .retire), (0x18, .dataOwner), (0x20, .evPending), (0x21, .evEnable), (0x22, .evLevel),
        (0x23, .faultPending), (0x24, .claim), (0x25, .endReg), (0x26, .service), (0x27, .ntcConfig), (0x28, .quiet),
        (0x29, .coalesce), (0x30, .cachePolicy), (0x31, .cacheStatus), (0x32, .dozeDelay), (0x38, .rsvView 0),
        (0x39, .rsvView 1), (0x3A, .rsvView 2), (0x3B, .rsvView 3), (0x3C, .mediaStatus), (0x3D, .rsvLost)] :
        List (WordAddr × Reg)),
      regOf p.1 = some p.2 ∧ ∀ s : State, s.readAddr p.1 = s.readReg p.2)
    ∧ ∀ s : State,
      let shows (r : Reg) (fields : List (Nat × Nat × Nat)) : Prop := Shows (s.readReg r) fields
      let cause : Nat := ([.por, .pin, .port, .controller, .collision] : List ResetKind).idxOf s.rst.cause + 1
      let log := s.hpi.log
      let logged : List (Nat × Nat × Nat) := [(log.count, 8, 8), (log.cmdCode.toNat, 16, 8), (log.target.toNat, 24, 8)]
      let lines (p : Line → Bool) : Nat := ((List.finRange 32).filter fun l => p (s.line l)).length
      s.readReg .deviceId = 0x256 ∧ shows .portConfig [(bit s.rst.portReset, 0, 1)]
        ∧ shows .hostControl [(bit s.rst.nen, 0, 1)]
        ∧ (s.rst.collision = none → shows .resetCause [(cause, 0, 3)])
        ∧ (∀ higher arriving, s.rst.collision = some (higher, arriving) →
          shows .resetCause [(cause, 0, 3), (16 + higher.index, 8, 5), (16 + arriving.index, 16, 5)])
        ∧ (log.reason = none → shows .rejectLog logged)
        ∧ (∀ r, log.reason = some r → shows .rejectLog ((([.badSlot, .slotBusy, .badCommand, .badFlags, .badToken, .badCount,
          .badRange, .badRegisterValue, .strayData, .badFrame] : List RejectReason).idxOf r + 1, 0, 4) :: logged))
        ∧ (∀ r ∈ ([.submit, .abort, .retire, .endReg] : List Reg), s.readReg r = 0)
        ∧ shows .evPending [(s.ntc.evPending.toNat, 0, 9)] ∧ shows .evEnable [(s.ntc.evEnable.toNat, 0, 9)]
        ∧ shows .evLevel ((List.range 9).map fun i => (s.ntc.levelOf i, 3 * i, 3))
        ∧ shows .faultPending [(s.ntc.faults.toNat, 0, 4), (s.ntc.f2Detail.toNat, 8, 18)]
        ∧ shows .service [(s.ntc.level, 0, 4), (s.ntc.stack.length, 8, 3)]
        ∧ shows .ntcConfig [(bit s.ntc.nestOff, 0, 1)] ∧ shows .quiet [(s.ntc.quiet.toNat, 0, 12)]
        ∧ shows .coalesce [(s.ntc.threshold.toNat, 0, 4), (s.ntc.timeout.toNat, 8, 8), (s.ntc.unannounced, 16, 4)]
        ∧ shows .cachePolicy [(s.fc.high.toNat, 0, 6), (s.fc.low.toNat, 8, 6), (bit s.fc.wt, 16, 1)]
        ∧ shows .cacheStatus [(lines fun l => l.state != .invalid, 0, 6), (lines fun l => l.state == .dirty, 8, 6),
          (s.fc.dirtyList.length, 16, 6), (bit s.fc.ticket.isSome, 24, 1), (bit s.fc.draining, 25, 1), (bit s.wbeRuns, 26, 1)]
        ∧ shows .dozeDelay [(s.pwr.dozeDelay.toNat, 0, 8)]
        ∧ (∀ n : Fin 4, s.rvt.entries[n.val]? = none → s.readReg (.rsvView n) = 0)
        ∧ (∀ (n : Fin 4) (r : Rsv), s.rvt.entries[n.val]? = some r →
          shows (.rsvView n) [(1, 31, 1), (r.token.toNat, 23, 8), (r.length, 18, 5), (r.start, 0, 18)])
        ∧ (s.rvt.lost = none → s.readReg .rsvLost = 0)
        ∧ (∀ l, s.rvt.lost = some l → shows .rsvLost [(l.token.toNat, 0, 8),
          (([.evicted, .write, .trim, .discard, .erase, .fault, .sleep, .media] : List BreakCause).idxOf l.cause + 1, 8, 4)])
        ∧ (s.mount ≠ none → s.readReg .mediaStatus = 0)
        ∧ (s.mount = none →
          let reclaim : Nat :=
            if s.freeCount < 3 then 2 else if s.mm.reclaimFill = true ∨ s.groupsIn .retiring ≠ [] then 1 else 0
          shows .mediaStatus [(s.freeCount, 0, 12), (s.reserve, 12, 9), (bit s.mm.readOnly, 21, 1), (reclaim, 22, 2),
            (s.mm.relocQueue.length, 24, 5)])

/-- A frame that begins at 0x10 takes a snapshot of CH0 to CH3 at its first word, and its words at 0x10 to 0x13 return that
snapshot whatever the completion queue then holds (R12); also where a COLLISION reset came between the header and that first
word (the model's choice, log 48). And the registers of the slots: CH0 to CH3 show the oldest record, or 0 (R39, Table 12-4),
SLOT_STATE the slots' states (R23), RUN_ORDER the run queue, oldest first (R24; it has at most 8 entries by
StepKeepsSlotsAgreed), CQ_STATUS its fields (R39), and DATA_OWNER the port owner and its words remaining (R48). -/
def Obligations.HeadSnapshotIsServed : Prop :=
  (∀ (s : State) (bad : Bool), s.AtRest → s.hpi.wordDue .readBurst = true → s.hpi.owes = false → s.held = false →
    (s.hpi.phase = .header → s.hpi.nextAddr = 0x10 →
        exec (.readWordCapture bad) s = .next (endUnit { s with hpi := { s.hpi with
          phase := .data, nextAddr := 0x11, wordsDue := s.hpi.wordsDue - 1, snapshot := some s.headWords
          captured := some { addr := 0x10, value := s.headWords.ch0, effect := .nothing }
          sdo := .bits s.headWords.ch0 } }))
      ∧ ∀ (h : HeadWords) (n : Fin 4), s.hpi.phase = .data → s.hpi.snapshot = some h →
        s.hpi.nextAddr = BitVec.ofNat 16 (0x10 + n.val) →
        exec (.readWordCapture bad) s = .next (endUnit { s with hpi := { s.hpi with
          nextAddr := s.hpi.nextAddr + 1, wordsDue := s.hpi.wordsDue - 1
          captured := some { addr := s.hpi.nextAddr, value := h.word n, effect := .nothing }
          sdo := .bits (h.word n) } }))
    ∧ ∀ s : State,
      let shows (r : Reg) (fields : List (Nat × Nat × Nat)) : Prop := Shows (s.readReg r) fields
      let commands : List Cmd := [.read, .write, .trim, .prefetch, .clean, .purge, .discard, .flush, .sync, .describe, .health,
        .sleep, .eraseAll]
      let statuses : List Status := [.ok, .aborted, .condFail, .writeProtected, .unreadable, .bufferError]
      let states : List SlotState := [.free, .queued, .loading, .loaded, .applying, .settling, .unloading, .done]
      let halted : Bool := decide (s.frozen = true ∨ s.mount.isSome = true ∨ s.pwr.state ∈ [.doze, .sleep, .waking])
      let queue : List (Nat × Nat × Nat) := [(s.csq.completions.length, 0, 4),
        ((s.csq.slots.toList.filter fun sl => sl.state == .free).length, 4, 4), (bit halted, 13, 1)]
      (∀ n, s.readReg (.ch n) = [s.headWords.ch0, s.headWords.ch1, s.headWords.ch2, s.headWords.ch3][n])
        ∧ (s.csq.completions = [] → ∀ n, s.readReg (.ch n) = 0)
        ∧ (∀ c rest, s.csq.completions = c :: rest →
          shows (.ch 0) [(c.slot.val, 0, 3), (commands.idxOf c.cmd + 1, 8, 8), (statuses.idxOf c.status, 16, 3),
              (c.foliosDone, 24, 5)]
            ∧ shows (.ch 1) [(bit c.flags.abortLate, 0, 1), (bit c.flags.corrected, 1, 1), (bit c.flags.unmapped, 2, 1),
              (bit c.flags.rsvMade, 3, 1), (bit c.flags.discardRaced, 4, 1), (bit c.flags.purgePartial, 5, 1),
              (bit c.flags.sleepSkipped, 6, 1)]
            ∧ s.readReg (.ch 2) = c.detail ∧ s.readReg (.ch 3) = c.hostTag)
        ∧ shows .slotState ((List.finRange 8).map fun n => (states.idxOf (s.slot n).state, 4 * n.val, 4))
        ∧ (s.csq.runQueue.length ≤ 8 →
          shows .runOrder (s.csq.runQueue.zipIdx.map fun p => (8 + p.1.val, 4 * p.2, 4)))
        ∧ (s.csq.apply = none → shows .cqStatus queue)
        ∧ (∀ a, s.csq.apply = some a → shows .cqStatus (queue ++ [(1, 8, 1), (a.slot.val, 9, 3),
          (bit (decide (a.kind ∈ [.writeThrough, .writeAtomic, .sleep, .eraseAll])), 12, 1)]))
        ∧ (s.dp.owner = none → s.readReg .dataOwner = 0)
        ∧ ∀ n, s.dp.owner = some n →
          let remaining : Nat := match (s.slot n).state with
            | .loading => (s.slot n).desc.count * 256 - (s.wordsOf n).length
            | .unloading => (s.wordsOf n).length - s.consumedOf n
            | _ => 0
          shows .dataOwner [(1, 31, 1), (bit ((s.slot n).state == .unloading), 30, 1), (n.val, 24, 3), (remaining, 0, 13)]

/-- The addresses of R11 are exactly those that decode to no register; a read there returns 0 and a write there has no
effect, and neither has any other side effect. -/
def Obligations.UndecodedAddressesDoNothing : Prop :=
  ∀ a : WordAddr,
    (regOf a = none ↔
        a = 0x06 ∨ a = 0x07 ∨ a = 0x16 ∨ a = 0x17 ∨ (0x1A ≤ a.toNat ∧ a.toNat ≤ 0x1F) ∨ (0x2A ≤ a.toNat ∧ a.toNat ≤ 0x2F)
          ∨ (0x33 ≤ a.toNat ∧ a.toNat ≤ 0x37) ∨ (0x3E ≤ a.toNat ∧ a.toNat ≤ 0xFF) ∨ 0x200 ≤ a.toNat)
      ∧ ∀ s : State, regOf a = none →
        (∀ w, s.Takes a → exec (.registerWrite a w) s = .next (endUnit s.counted))
          ∧ ∀ bad, s.AtRest → s.hpi.wordDue .readBurst = true → s.hpi.owes = false → s.hpi.nextAddr = a →
            exec (.readWordCapture bad) s = .next (endUnit { s with hpi := { s.hpi with
              phase := .data, nextAddr := a + 1, wordsDue := s.hpi.wordsDue - 1
              captured := some { addr := a, value := 0, effect := .nothing }, sdo := .bits 0 } })

/-- Every address of the data window decodes to DATA_PORT, the same as 0x19, and no other address does: 257 addresses in all,
at each of which an access is one DATA_PORT access with the same effect (R10). -/
def Obligations.DataWindowIsDataPort : Prop :=
  ∀ a : WordAddr,
    (regOf a = some .dataPort ↔ a = 0x19 ∨ (0x100 ≤ a.toNat ∧ a.toNat ≤ 0x1FF))
      ∧ (regOf a = some .dataPort → ∀ (s : State) (w : Word),
        writeAddr a w s = writeAddr 0x19 w s ∧ s.captureOf a = s.captureOf 0x19
          ∧ (s.Takes a → exec (.registerWrite a w) s = exec (.dataPortWrite a w) s))

/-- In RESET_HELD a read of any address but DEVICE_STATE and PORT_CONFIG returns 0 with no side effect, and a write at any
address but PORT_CONFIG has no effect (R14). A write row without its word changes nothing (the model's choice, log 12). -/
def Obligations.ResetHeldServesTwoRegisters : Prop :=
  ∀ s : State, s.AtRest →
    (∀ bad, s.held = true → s.hpi.wordDue .readBurst = true → s.hpi.owes = false → s.hpi.snapshot = none →
        let v := if s.hpi.nextAddr = 0x01 then s.deviceState else if s.hpi.nextAddr = 0x02 then 1 else 0
        exec (.readWordCapture bad) s = .next (endUnit { s with hpi := { s.hpi with
          phase := .data, nextAddr := s.hpi.nextAddr + 1, wordsDue := s.hpi.wordsDue - 1
          captured := some { addr := s.hpi.nextAddr, value := v, effect := .nothing }, sdo := .bits v } }))
      ∧ (∀ c a, c.writeRow = some a → a ≠ 0x02 → s.held = true → s.hpi.acceptsWrite a = true →
        exec c s = .next (endUnit s.counted))
      ∧ ∀ c a, c.writeRow = some a → s.hpi.acceptsWrite a = false → exec c s = .next s

/-- A reject replaces reason, target and cmd_code, increments count up to 255, and makes REJECT pending; in RESET_HELD it
records nothing (R14, R15). A write to REJECT_LOG that sets CLR sets every field to 0, one with CLR 0 has no effect, and one
with a reserved bit is itself rejected. -/
def Obligations.RejectIsRecorded : Prop :=
  (∀ (s : State) (w : Word), s.Serves 0x05 →
    ((w &&& 0xE0 ≠ 0) → exec (.rejectLogClear w) s = .next (endUnit (reject .badRegisterValue 0x05 0 s.counted)))
      ∧ (w &&& 0xE0 = 0 → w.getLsbD 4 = true → exec (.rejectLogClear w) s =
          .next (endUnit { s.counted with hpi := { s.counted.hpi with
            log := { reason := none, target := 0, cmdCode := 0, count := 0 } } }))
      ∧ (w &&& 0xE0 = 0 → w.getLsbD 4 = false → exec (.rejectLogClear w) s = .next (endUnit s.counted))) ∧
  ∀ (r : RejectReason) (target code : Byte) (s : State),
    (s.held = false →
        reject r target code s = { s with
          hpi := { s.hpi with log :=
            { reason := some r, target := target, cmdCode := code
              count := if s.hpi.log.count < 255 then s.hpi.log.count + 1 else 255 } }
          ntc := { s.ntc with evPending := s.ntc.evPending ||| 8 } })
      ∧ (s.held = true → reject r target code s = s)

/-! ### The data port -/

/-- The capture of a DATA_PORT word (R50, R51, R54): the next word of an OUT phase, to be consumed; a stray read, which
returns 0 and owes its reject; a bad word, which ends the phase and makes the read stray. And its completion: the word is
consumed, and after the last one the slot enters DONE with the whole folios delivered; a stray word is rejected; a dropped side
effect does nothing (R8). -/
def Obligations.DataWordIsCapturedThenConsumed : Prop :=
  (∀ (s : State) (bad : Bool), s.AtRest → s.hpi.wordDue .readBurst = true → s.hpi.owes = false → s.held = false →
    isDataPortAddr s.hpi.nextAddr = true →
    let captured (u : State) (v : Word) (e : ReadEffect) : State :=
      { u with hpi := { u.hpi with
          phase := .data, nextAddr := s.hpi.nextAddr + 1, wordsDue := s.hpi.wordsDue - 1
          captured := some { addr := s.hpi.nextAddr, value := v, effect := e }, sdo := .bits v } }
    (s.dp.owner = none → exec (.readWordCapture bad) s = .next (endUnit (captured s 0 (.strayReject 0))))
      ∧ (∀ n, s.dp.owner = some n → (s.slot n).state ≠ .unloading →
        exec (.readWordCapture bad) s =
          .next (endUnit (captured s 0 (.strayReject (BitVec.ofNat 8 (s.slot n).desc.cmd.code)))))
      ∧ (∀ n, s.dp.owner = some n → (s.slot n).state = .unloading →
        exec (.readWordCapture false) s =
          .next (endUnit (captured s ((s.wordsOf n).getD (s.consumedOf n) 0) .consumeWord)))
      ∧ ∀ n, s.dp.owner = some n → (s.slot n).state = .unloading →
        exec (.readWordCapture true) s =
          .next (endUnit (captured
            (completeSlot n .bufferError (s.consumedOf n / 256) (raiseFault .f4 s)) 0 (.strayReject 0))))
    ∧ ∀ (s : State) (c : Captured), s.AtRest → s.hpi.captured = some c → isDataPortAddr c.addr = true →
    let out : State := { s with hpi := { s.hpi with captured := none, sdo := .low } }
    (c.effect = .dropped ∨ c.effect = .nothing → exec .dataPortRead s = .next (endUnit out))
      ∧ (∀ code, c.effect = .strayReject code →
        exec .dataPortRead s = .next (endUnit (reject .strayData 0x19 code out)))
      ∧ ∀ n b, c.effect = .consumeWord → s.dp.owner = some n → (s.slot n).state = .unloading → s.bufOf n = some b →
        let moved := setBuf b { s.buf b with consumed := (s.buf b).consumed + 1 } out
        ((s.buf b).consumed + 1 < (s.buf b).words.length → exec .dataPortRead s = .next (endUnit moved))
          ∧ ((s.buf b).words.length ≤ (s.buf b).consumed + 1 →
            exec .dataPortRead s =
              .next (endUnit (completeSlot n (s.slot n).status (((s.buf b).consumed + 1) / 256) moved)))

/-- A DATA_PORT write in an IN phase stores its word at the next position; the last word makes the WRITE LOADED and releases
the port. With no owner, or against the direction, it is dropped and rejected as STRAY_DATA (R49, R51). -/
def Obligations.DataWordIsStored : Prop :=
  ∀ (s : State) (a : WordAddr) (w : Word), s.Serves a → isDataPortAddr a = true →
    (s.dp.owner = none → exec (.dataPortWrite a w) s = .next (endUnit (reject .strayData 0x19 0 s.counted)))
      ∧ (∀ n, s.dp.owner = some n → (s.slot n).state ≠ .loading →
        exec (.dataPortWrite a w) s =
          .next (endUnit (reject .strayData 0x19 (BitVec.ofNat 8 (s.slot n).desc.cmd.code) s.counted)))
      ∧ ∀ n b, s.dp.owner = some n → (s.slot n).state = .loading → s.bufOf n = some b →
        let stored := setBuf b { s.buf b with words := (s.buf b).words ++ [w] } s.counted
        ((s.buf b).words.length + 1 < (s.slot n).desc.count * 256 →
            exec (.dataPortWrite a w) s = .next (endUnit stored))
          ∧ ((s.slot n).desc.count * 256 ≤ (s.buf b).words.length + 1 →
            ∃ u, exec (.dataPortWrite a w) s = .next (endUnit u)
              ∧ u = { setSlot n { s.slot n with state := .loaded } stored with dp := { stored.dp with owner := none } })

/-- The end of a command (R35, R36): the slot is DONE with its status and its results, its buffer is released, its record is
appended with the fields of the slot record, where the detail of a PURGE that completes counts the lines purged while it
settled (R75), and the completion is counted, at once where the status is not OK or URGENT is set (R158). -/
def Obligations.CompletionLeavesOneRecord : Prop :=
  ∀ (n : Fin 8) (st : Status) (done : Nat) (s : State),
    let t := completeSlot n st done s
    let sl := s.slot n
    let flags : CompFlags := { sl.flags with abortLate := sl.lateAbort }
    let detail : Word := if st = .ok then sl.detail + BitVec.ofNat 32 sl.purged else sl.detail
    t = { s with csq := t.csq, dp := t.dp, ntc := t.ntc } ∧ t.csq.cd = s.csq.cd ∧ t.csq.runQueue = s.csq.runQueue
      ∧ t.slot n =
        { sl with state := .done, status := st, foliosDone := done, flags := flags, detail := detail, triples := [] }
      ∧ (∀ m, m ≠ n → t.slot m = s.slot m)
      ∧ t.csq.completions = s.csq.completions ++ [{ slot := n, cmd := sl.desc.cmd, status := st, foliosDone := done
                                                    flags := flags, detail := detail, hostTag := sl.desc.hostTag }]
      ∧ t.ntc = (countCompletion (decide (st ≠ .ok ∨ sl.desc.urgent = true)) s).ntc
      ∧ t.csq.apply = (if s.csq.apply.any (fun a => a.slot == n) then none else s.csq.apply)
      ∧ (∀ b, s.bufOf n = some b → t.buf b = { holder := none, words := [], consumed := 0 })
      ∧ (∀ b, s.bufOf n ≠ some b → t.buf b = s.buf b)
      ∧ t.dp.owner = (if s.dp.owner = some n then none else s.dp.owner)

/-- How a completion is counted (R158): with a status other than OK or URGENT it is announced at once; otherwise U rises, the
timer starts at the first one unless the timeout is 0, and at T it is announced. -/
def Obligations.CompletionsAreCoalesced : Prop :=
  ∀ s : State,
    let announced := { s with ntc := { s.ntc with evPending := s.ntc.evPending ||| 2, unannounced := 0, timer := none } }
    countCompletion true s = announced
      ∧ (s.ntc.unannounced + 1 = s.ntc.threshold.toNat → countCompletion false s = announced)
      ∧ (s.ntc.unannounced + 1 ≠ s.ntc.threshold.toNat → 0 < s.ntc.unannounced →
        countCompletion false s = { s with ntc := { s.ntc with unannounced := s.ntc.unannounced + 1 } })
      ∧ (s.ntc.unannounced + 1 ≠ s.ntc.threshold.toNat → s.ntc.unannounced = 0 →
        countCompletion false s = { s with ntc := { s.ntc with
          unannounced := 1
          timer := if s.ntc.timeout = 0 then none else some { elapsed := 0, limit := s.ntc.timeout.toNat } } })

/-! ### The Notification Controller -/

/-- Eligibility, the winner and what a CLAIM may return (R151), and the pins (R152): a pending fault of highest level wins,
otherwise the eligible source of highest level and then of lowest index. -/
def Obligations.WinnerIsHighestEligible : Prop :=
  (∀ n : Ntc,
    (∀ i < 9, (n.eligible i = true ↔
        n.evPending.getLsbD i = true ∧ n.evEnable.getLsbD i = true ∧ 0 < n.levelOf i ∧ (n.quiet = 0 ∨ 4 < n.levelOf i)))
      ∧ (∀ f, n.pendingFault f = true → (∀ g, n.pendingFault g = true → g.level ≤ f.level) →
        n.winner = some { code := 16 + f.index, level := 7 + f.index, maskable := false })
      ∧ ((∀ f, n.pendingFault f = false) →
        (n.winner = none ↔ ∀ i < 9, n.eligible i = false)
          ∧ ∀ i < 9, n.eligible i = true →
            (∀ j < 9, n.eligible j = true → n.levelOf j < n.levelOf i ∨ (n.levelOf j = n.levelOf i ∧ i ≤ j)) →
            n.winner = some { code := i, level := n.levelOf i, maskable := true })
      ∧ ∀ w, (n.claimable = some w ↔ n.winner = some w ∧ n.level < w.level))
    ∧ ∀ s : State,
      (s.notifyLow = true ↔ s.rst.nen = true ∧ ∃ w, s.ntc.winner = some w ∧ s.ntc.level < w.level)
        ∧ (s.alertLow = true ↔
          ∃ f, f ≠ .f1 ∧ (s.ntc.pendingFault f = true ∨ s.ntc.level = 7 + f.index ∨ 7 + f.index ∈ s.ntc.stack))
        ∧ s.frozen = s.alertLow

/-- A CLAIM word (R153): at its capture it takes the winner, or code 63; at its completion the level is pushed, or F1
raised, as the capture determined. -/
def Obligations.ClaimIsCapturedThenMade : Prop :=
  (∀ (s : State) (bad : Bool), s.AtRest → s.hpi.wordDue .readBurst = true → s.hpi.owes = false → s.held = false →
    s.hpi.nextAddr = 0x24 →
    let captured (v : Word) (e : ReadEffect) : State :=
      { s with hpi := { s.hpi with
          phase := .data, nextAddr := 0x25, wordsDue := s.hpi.wordsDue - 1
          captured := some { addr := 0x24, value := v, effect := e }, sdo := .bits v } }
    (s.ntc.claimable = none → exec (.readWordCapture bad) s = .next (endUnit (captured 63 .nothing)))
      ∧ ∀ w, s.ntc.claimable = some w →
        (6 ≤ s.ntc.stack.length → exec (.readWordCapture bad) s = .next (endUnit (captured 63 .raiseF1)))
          ∧ (s.ntc.stack.length < 6 →
            exec (.readWordCapture bad) s =
              .next (endUnit (captured (BitVec.ofNat 32 (w.code + 256 * w.level))
                (.pushClaim (if s.ntc.nestOff = true ∧ w.maskable = true then 6 else w.level))))))
    ∧ ∀ (s : State) (c : Captured), s.AtRest → s.hpi.captured = some c → c.addr = 0x24 →
      let out : State := { s with hpi := { s.hpi with captured := none, sdo := .low } }
      (c.effect = .nothing ∨ c.effect = .dropped → exec .claim s = .next (endUnit out))
        ∧ (c.effect = .raiseF1 →
          exec .claim s = .next (endUnit { out with ntc := { s.ntc with faults := s.ntc.faults ||| 1 } }))
        ∧ ∀ v, c.effect = .pushClaim v →
          exec .claim s =
            .next (endUnit { out with ntc := { s.ntc with stack := s.ntc.level :: s.ntc.stack, level := v } })

/-- A write to END pops the service stack, or raises F1 on an empty one; a word other than 0 is refused without either; a
read returns 0 (R154). -/
def Obligations.EndPopsServiceStack : Prop :=
  ∀ (s : State) (w : Word), s.Serves 0x25 →
    (∀ l rest, w = 0 → s.ntc.stack = l :: rest →
        exec (.endWrite w) s = .next (endUnit { s.counted with ntc := { s.ntc with level := l, stack := rest } }))
      ∧ (w = 0 → s.ntc.stack = [] →
        exec (.endWrite w) s = .next (endUnit { s.counted with ntc := { s.ntc with faults := s.ntc.faults ||| 1 } }))
      ∧ (w ≠ 0 → exec (.endWrite w) s = .next (endUnit (reject .badRegisterValue 0x25 0 s.counted)))
      ∧ s.readReg .endReg = 0

/-- Writes to EV_PENDING and FAULT_PENDING clear the flags whose bits are 1; writes to EV_ENABLE, EV_LEVEL and NTC_CONFIG
replace the settings; an illegal value changes nothing and is rejected with the register's offset (R17, R149, R150, R156). A
write to a read-only register is ignored without a reject (R182). -/
def Obligations.NotificationRegistersAreWritten : Prop :=
  ∀ (s : State) (w : Word),
    let u := s.counted
    let refused (target : Byte) : Host.Outcome State Fault Refusal :=
      .next (endUnit (reject .badRegisterValue target 0 u))
    (s.Serves 0x20 →
        (w.toNat < 512 → exec (.evPendingClear w) s =
            .next (endUnit { u with ntc := { s.ntc with evPending := s.ntc.evPending &&& ~~~(w.setWidth 9) } }))
          ∧ (512 ≤ w.toNat → exec (.evPendingClear w) s = refused 0x20))
      ∧ (s.Serves 0x21 →
        (w.toNat < 512 → exec (.registerWrite 0x21 w) s =
            .next (endUnit { u with ntc := { s.ntc with evEnable := w.setWidth 9 } }))
          ∧ (512 ≤ w.toNat → exec (.registerWrite 0x21 w) s = refused 0x21))
      ∧ (s.Serves 0x22 →
        let legal := w.toNat < 2 ^ 27 ∧ ∀ i < 9, (w.extractLsb' (3 * i) 3).toNat ≤ 6
        (legal → exec (.registerWrite 0x22 w) s =
            .next (endUnit { u with ntc := { s.ntc with evLevel := w.setWidth 27 } }))
          ∧ (¬legal → exec (.registerWrite 0x22 w) s = refused 0x22))
      ∧ (s.Serves 0x23 →
        (w &&& 0xFC0000F0 = 0 → exec (.faultPendingClear w) s =
            .next (endUnit { u with ntc := { s.ntc with faults := s.ntc.faults &&& ~~~(w.setWidth 4) } }))
          ∧ (w &&& 0xFC0000F0 ≠ 0 → exec (.faultPendingClear w) s = refused 0x23))
      ∧ (s.Serves 0x27 →
        (w.toNat < 2 → exec (.registerWrite 0x27 w) s =
            .next (endUnit { u with ntc := { s.ntc with nestOff := w.getLsbD 0 } }))
          ∧ (2 ≤ w.toNat → exec (.registerWrite 0x27 w) s = refused 0x27))
      ∧ ∀ a ∈ ([0x00, 0x01, 0x04, 0x0E, 0x0F, 0x10, 0x11, 0x12, 0x13, 0x14, 0x18, 0x24, 0x31, 0x38, 0x39, 0x3A, 0x3B, 0x3C,
            0x3D] : List WordAddr),
          s.Serves a → exec (.registerWrite a w) s = .next (endUnit u)

/-- Writes to SERVICE (R155), QUIET (R157) and COALESCE (R159): the accepted values with their effects, the ignored QUIET
values, and the refusals. -/
def Obligations.ServiceQuietCoalesceAreWritten : Prop :=
  ∀ (s : State) (w : Word),
    let u := s.counted
    let refused (target : Byte) : Host.Outcome State Fault Refusal :=
      .next (endUnit (reject .badRegisterValue target 0 u))
    (s.Serves 0x26 →
        let legal := w &&& 0xFFFFF8F0 = 0 ∧ s.ntc.nestOff = false ∧ s.ntc.level ≤ 6 ∧ w.toNat % 16 ≤ 6
        (legal → exec (.serviceWrite w) s = .next (endUnit { u with ntc := { s.ntc with level := w.toNat % 16 } }))
          ∧ (¬legal → exec (.serviceWrite w) s = refused 0x26))
      ∧ (s.Serves 0x28 →
        (4096 ≤ w.toNat → exec (.quietWrite w) s = refused 0x28)
          ∧ (w.toNat < 4096 → w = 0 ∨ s.ntc.quiet.toNat < w.toNat →
            exec (.quietWrite w) s = .next (endUnit { u with ntc := { s.ntc with quiet := w.setWidth 12 } }))
          ∧ (0 < w.toNat → w.toNat ≤ s.ntc.quiet.toNat → exec (.quietWrite w) s = .next (endUnit u)))
      ∧ (s.Serves 0x29 →
        let legal := w &&& 0xFFF000F0 = 0 ∧ 1 ≤ w.toNat % 16 ∧ w.toNat % 16 ≤ 8
        let taken : Ntc := { s.ntc with threshold := w.setWidth 4, timeout := (w >>> 8).setWidth 8 }
        (¬legal → exec (.coalesceWrite w) s = refused 0x29)
          ∧ (legal → s.ntc.unannounced < w.toNat % 16 → exec (.coalesceWrite w) s = .next (endUnit { u with ntc := taken }))
          ∧ (legal → w.toNat % 16 ≤ s.ntc.unannounced → exec (.coalesceWrite w) s =
              .next (endUnit { u with ntc := { taken with
                evPending := s.ntc.evPending ||| 2, unannounced := 0, timer := none } })))

/-- Writes to CACHE_POLICY (R94) and DOZE_DELAY (R167): the settings, with the doze intent and the idle timer as the new delay
has them. -/
def Obligations.PolicyAndDelayAreWritten : Prop :=
  ∀ (s : State) (w : Word),
    let u := s.counted
    (s.Serves 0x30 →
        let legal := w &&& 0xFFFEC0C0 = 0 ∧ 1 ≤ w.toNat % 64 ∧ w.toNat % 64 ≤ 32 ∧ w.toNat / 256 % 64 < w.toNat % 64
        (legal → exec (.cachePolicyWrite w) s = .next (endUnit { u with fc := { s.fc with
            high := w.setWidth 6, low := (w >>> 8).setWidth 6, wt := w.getLsbD 16 } }))
          ∧ (¬legal → exec (.cachePolicyWrite w) s = .next (endUnit (reject .badRegisterValue 0x30 0 u))))
      ∧ (s.Serves 0x32 →
        (256 ≤ w.toNat → exec (.dozeDelayWrite w) s = .next (endUnit (reject .badRegisterValue 0x32 0 u)))
          ∧ (w = 0 → exec (.dozeDelayWrite w) s =
              .next (endUnit { u with pwr := { s.pwr with dozeDelay := 0, intent := false, idleTimer := 0 } }))
          ∧ (0 < w.toNat → w.toNat < 256 → exec (.dozeDelayWrite w) s =
              .next (endUnit { u with pwr := { s.pwr with
                dozeDelay := w.setWidth 8
                intent := s.pwr.intent || decide (w.toNat * 100 ≤ s.pwr.idleTimer) } })))

/-! ### Submission, ABORT and RETIRE -/

/-- A staging word keeps what is written to it: it is not checked, but for the reserved bits of CD0; no command but its own
write changes it, unless a reset puts the whole CSQ at its reset value; every reset sets it to 0 (R18). -/
def Obligations.StagingWordsKeepTheirContents : Prop :=
  (∀ (s : State) (n : Fin 4) (w : Word), s.Serves (BitVec.ofNat 16 (8 + n.val)) →
      (n = 0 → w &&& 0xE000E000 ≠ 0 →
          exec (.cdWrite n w) s = .next (endUnit (reject .badRegisterValue 0x08 0 s.counted)))
        ∧ (n ≠ 0 ∨ w &&& 0xE000E000 = 0 →
          exec (.cdWrite n w) s =
            .next (endUnit { s.counted with csq := { s.csq with cd := s.csq.cd.set n.val w n.isLt } })))
    ∧ (∀ (s : State) (n : Fin 4), s.readReg (.cd n) = s.csq.cd[n])
    ∧ (∀ (c : Instr) (s t : State), (∀ n w, c ≠ .cdWrite n w) → (∀ a w, c = .registerWrite a w → a ∉ [8, 9, 10, 11]) →
        exec c s = .next t → t.csq.cd = s.csq.cd ∨ t.csq = Csq.reset)
    ∧ (∀ (w : Word) (s t : State), exec (.submit w) s = .next t → t.csq.cd = s.csq.cd)
    ∧ ∀ (s : State) (k : ResetKind) (r : Option (FaultCode × FaultCode)) (n : Fin 4),
        (fullReset k s).csq.cd[n] = 0 ∧ (partialReset k r s).csq.cd[n] = 0

/-- SUBMIT makes its checks in their order, and the first that fails is the reject (R20, R21); a command that passes them all
is accepted: its slot is QUEUED with the descriptor, it is the youngest of the run queue, and the Power Manager is told (R22).
`descOk` writes out checks 4 to 7. -/
def Obligations.SubmitChecksThenAccepts : Prop :=
  ∀ (s : State) (w : Word), s.Serves 0x0C →
    let u := s.counted
    let cd0 := s.csq.cd[0]
    let desc (c : Cmd) : Desc :=
      { cmd := c, rsv := cd0.getLsbD 24, cond := cd0.getLsbD 25, atom := cd0.getLsbD 26, thru := cd0.getLsbD 27
        urgent := cd0.getLsbD 28, token := (cd0 >>> 16).setWidth 8, count := cd0.toNat / 256 % 32
        folio := s.csq.cd[1].toNat, aux := s.csq.cd[2], hostTag := s.csq.cd[3] }
    let range (c : Cmd) : Prop := c ∈ [.read, .write, .trim, .prefetch, .clean, .purge, .discard]
    let flags (d : Desc) : Prop :=
      (d.rsv = true → d.cmd = .read) ∧ ((d.cond = true ∨ d.atom = true ∨ d.thru = true) → d.cmd = .write)
    let token (d : Desc) : Prop := (d.rsv = true ∨ d.cond = true) → d.token ≠ 0
    let count (d : Desc) : Prop :=
      (range d.cmd → 1 ≤ d.count ∧ d.count ≤ 16) ∧ (d.cmd = .describe ∨ d.cmd = .health → d.count = 1)
        ∧ (d.cmd ∈ [.flush, .sync, .sleep, .eraseAll] → d.count = 0)
    let folios (d : Desc) : Prop :=
      (range d.cmd → d.folio + d.count ≤ 245760) ∧ (¬range d.cmd → d.folio = 0)
        ∧ (d.cmd = .health → d.aux = 0 ∨ d.aux = 1)
    let rejected (r : RejectReason) : Host.Outcome State Fault Refusal :=
      .next (endUnit (reject r (w.setWidth 8) (cd0.setWidth 8) u))
    (256 ≤ w.toNat → exec (.submit w) s = .next (endUnit (reject .badRegisterValue 0x0C 0 u)))
      ∧ (8 ≤ w.toNat → w.toNat < 256 → exec (.submit w) s = rejected .badSlot)
      ∧ ∀ n : Fin 8, w.toNat = n.val →
        ((s.slot n).state ≠ .free → exec (.submit w) s = rejected .slotBusy)
          ∧ ((s.slot n).state = .free →
            (cd0.toNat % 256 = 0 ∨ 13 < cd0.toNat % 256 → exec (.submit w) s = rejected .badCommand)
              ∧ ∀ c, ([.read, .write, .trim, .prefetch, .clean, .purge, .discard, .flush, .sync, .describe, .health, .sleep,
                  .eraseAll] : List Cmd)[cd0.toNat % 256 - 1]? = some c → 0 < cd0.toNat % 256 →
                let d := desc c
                (¬flags d → exec (.submit w) s = rejected .badFlags)
                  ∧ (flags d → ¬token d → exec (.submit w) s = rejected .badToken)
                  ∧ (flags d → token d → ¬count d → exec (.submit w) s = rejected .badCount)
                  ∧ (flags d → token d → count d → ¬folios d → exec (.submit w) s = rejected .badRange)
                  ∧ (flags d → token d → count d → folios d →
                    let sleeping := s.pwr.state = .doze ∨ s.pwr.state = .sleep
                    exec (.submit w) s = .next (endUnit { u with
                      csq := { s.csq with
                        slots := s.csq.slots.set n.val
                          { state := .queued, desc := d, lateAbort := false, status := .ok, foliosDone := 0, flags := .none
                            detail := 0, triples := [], purged := 0 } n.isLt
                        runQueue := s.csq.runQueue ++ [n] }
                      pwr := { s.pwr with
                        intent := false, idleTimer := 0
                        state := if sleeping then .waking else s.pwr.state
                        powerUp := if sleeping then (if s.pwr.mediaOn = true then none else some 0) else s.pwr.powerUp } })))

/-- ABORT acts by the slot's state (R41, R42); RETIRE takes the head record off the completion queue and frees its slot
(R40). -/
def Obligations.AbortAndRetireActByState : Prop :=
  ∀ (s : State) (w : Word),
    let u := s.counted
    (s.Serves 0x0D →
      (256 ≤ w.toNat → exec (.abort w) s = .next (endUnit (reject .badRegisterValue 0x0D 0 u)))
        ∧ (8 ≤ w.toNat → w.toNat < 256 → exec (.abort w) s = .next (endUnit (reject .badSlot (w.setWidth 8) 0 u)))
        ∧ ∀ n : Fin 8, w.toNat = n.val →
          ((s.slot n).state = .free ∨ (s.slot n).state = .done → exec (.abort w) s = .next (endUnit u))
            ∧ ((s.slot n).state = .queued ∨ (s.slot n).state = .loading ∨ (s.slot n).state = .loaded →
              exec (.abort w) s = .next (endUnit (completeSlot n .aborted 0 u)))
            ∧ ((s.slot n).state = .applying →
              exec (.abort w) s = .next (endUnit (setSlot n { s.slot n with lateAbort := true } u)))
            ∧ ((s.slot n).state = .unloading →
              exec (.abort w) s = .next (endUnit (completeSlot n .aborted (s.consumedOf n / 256) u)))
            ∧ ((s.slot n).state = .settling → ∃ v,
              exec (.abort w) s = .next (endUnit (completeSlot n .aborted (s.slot n).foliosDone v))
                ∧ v = { u with fc := { s.fc with lines := v.fc.lines } }
                ∧ ∀ l, v.line l =
                  { s.line l with purgeMark := if (s.line l).purgeMark = some n then none else (s.line l).purgeMark }))
      ∧ (s.Serves 0x15 →
        (w ≠ 0 → exec (.retire w) s = .next (endUnit (reject .badRegisterValue 0x15 0 u)))
          ∧ (w = 0 → s.csq.completions = [] → exec (.retire w) s = .next (endUnit u))
          ∧ ∀ c rest, w = 0 → s.csq.completions = c :: rest →
            exec (.retire w) s = .next (endUnit { u with csq := { s.csq with
              slots := s.csq.slots.set c.slot.val Slot.free c.slot.isLt, completions := rest
              runQueue := s.csq.runQueue.erase c.slot } }))

/-! ### HOST_CONTROL, resets and the start of a mount -/

/-- A write to HOST_CONTROL (R181): NEN takes its bit, then CRST makes a CONTROLLER reset, or else WAKE acts by the power state
(R171, R167). -/
def Obligations.HostControlActsInOrder : Prop :=
  ∀ (s : State) (w : Word), s.Serves 0x03 →
    let v : State := { s.counted with rst := { s.rst with nen := w.getLsbD 0 } }
    let woken (p : Pwr) : Host.Outcome State Fault Refusal := .next (endUnit { v with pwr := p })
    (8 ≤ w.toNat → ∀ c ∈ [.nenWrite w, .wake w, .controllerReset w],
        exec c s = .next (endUnit (reject .badRegisterValue 0x03 0 s.counted)))
      ∧ (w.toNat < 8 →
        (w.getLsbD 2 = true → exec (.controllerReset w) s = .next (endUnit (partialReset .controller none v)))
          ∧ (w.getLsbD 2 = false → w.getLsbD 1 = false → exec (.nenWrite w) s = .next (endUnit v))
          ∧ (w.getLsbD 2 = false → w.getLsbD 1 = true →
            (s.pwr.state = .doze ∨ s.pwr.state = .sleep → exec (.wake w) s =
                woken { s.pwr with state := .waking, powerUp := if s.pwr.mediaOn = true then none else some 0 })
              ∧ (s.pwr.state = .idle → exec (.wake w) s = woken { s.pwr with intent := false, idleTimer := 0 })
              ∧ (s.pwr.state = .active → exec (.wake w) s = woken { s.pwr with intent := false })
              ∧ (s.pwr.state = .waking ∨ s.pwr.state = .mounting ∨ s.pwr.state = .resetHeld →
                exec (.wake w) s = woken s.pwr)))

/-- What a partial reset leaves (R177, Table 11-1): host state, reservations and pending notifications at their reset values,
the configuration, the cache's data, the ticket, the media's state and the mount kept; and what it completes first: the
cache updates of an atomic WRITE whose commit note has landed (R179), and the unmapping of a TRIM or ERASE_ALL whose note has
landed (the model's choice, log 11). A media read that still waits at the port is withdrawn with its command (the model's
choice, log 44). -/
def Obligations.PartialResetKeepsAndClears : Prop :=
  ∀ (k : ResetKind) (r : Option (FaultCode × FaultCode)) (s : State),
    let t := partialReset k r s
    let first := completeFirst s
    t.csq = Csq.reset ∧ t.dp = DataPort.reset ∧ t.rvt = { entries := [], lost := none }
      ∧ t.hpi = { s.hpi with
          log := { reason := none, target := 0, cmdCode := 0, count := 0 }, snapshot := none
          captured := s.hpi.captured.map fun c => { c with effect := .dropped } }
      ∧ t.ntc = { s.ntc with
          evPending := 0, faults := 0, level := 0, stack := [], quiet := 0, unannounced := 0, timer := none }
      ∧ t.pwr = { s.pwr with
          intent := false, idleTimer := 0
          state := if s.pwr.state = .doze ∨ s.pwr.state = .sleep then .waking else s.pwr.state
          powerUp := if s.pwr.state = .doze ∨ s.pwr.state = .sleep then (if s.pwr.mediaOn = true then none else some 0)
            else s.pwr.powerUp }
      ∧ t.rst = { s.rst with cause := k, collision := if r = none then s.rst.collision else r }
      ∧ t.mm = { s.mm with
          map := first.mm.map
          port := s.mm.port.map fun o => if o.req = .apply then { o with req := .orphan } else o }
      ∧ t.fc = { first.fc with lines := t.fc.lines, draining := decide (s.fc.high.toNat < t.dirtyCount) }
      ∧ (∀ l, t.line l =
          if (first.line l).state = .filling then { first.line l with state := .invalid, purgeMark := none, data := [] }
          else { first.line l with purgeMark := none })
      ∧ t.mount = s.mount ∧ t.pending = s.pending
      ∧ (s.csq.apply = none → first = s)
      ∧ ∀ a, s.csq.apply = some a →
        let d := (s.slot a.slot).desc
        (a.kind ≠ .writeAtomic ∧ (a.step < 2 ∨ a.kind ≠ .trim ∧ a.kind ≠ .eraseAll) → first = s)
          ∧ (a.kind = .writeAtomic → a.step ≤ d.count → first = s)
          ∧ (a.kind = .writeAtomic → d.count < a.step → a.accepted.Nodup →
            first.mm = s.mm
              ∧ (∀ i ∈ a.accepted, ∀ l, s.findLine (d.folio + i) = some l → first.line l = { s.line l with
                  state := .clean, version := (s.line l).version + 1, purgeMark := none
                  data := s.bufferFolio a.slot i })
              ∧ (∀ l, (∀ i ∈ a.accepted, s.findLine (d.folio + i) ≠ some l) → first.line l = s.line l)
              ∧ first.fc = { s.fc with
                  lines := first.fc.lines
                  dirtyList := a.accepted.foldl (fun list i => match s.findLine (d.folio + i) with
                    | some l => list.erase l
                    | none => list) s.fc.dirtyList })
          ∧ (a.kind = .trim ∨ a.kind = .eraseAll → 2 ≤ a.step →
            first = { s with mm := { s.mm with map := first.mm.map } }
              ∧ ∀ f, (a.kind = .trim → f < 245760) → first.mapEntry f =
                if a.kind = .eraseAll ∨ (d.folio ≤ f ∧ f < d.folio + d.count) then
                  { state := .trimmed, target := a.noteLoc, seq := a.seq0 }
                else s.mapEntry f)

/-- What a full reset leaves (R176, Table 11-1): everything at its value after a full reset (R43, R44, R100, R103, R137,
R164, R174) but the flash, the record region, the pins and, at a PORT reset, the frame; a program in progress is cut off, its
position torn and its group's next free position past it. The map, the counts of a mount and the sequence counter stand at an
empty value until the mount ends, a group that is not RETIRING or RETIRED as FREE, and every other next free position at 0
(the model's choice, log 32). -/
def Obligations.FullResetLeavesTheMedia : Prop :=
  ∀ (k : ResetKind) (s : State), s.StoresSound →
    let t := fullReset k s
    t.csq = { cd := Vector.replicate 4 0, slots := Vector.replicate 8 Slot.free, runQueue := [], completions := []
              apply := none }
      ∧ (∀ b, t.buf b = { holder := none, words := [], consumed := 0 }) ∧ t.dp.owner = none
      ∧ t.rvt = { entries := [], lost := none } ∧ t.mount = none ∧ t.pending = s.pending
      ∧ t.fc = { lines := Vector.replicate 32
                   { state := .invalid, folio := 0, version := 0, purgeMark := none, voidTicket := false, data := [] }
                 lru := List.finRange 32, dirtyList := [], ticket := none, draining := false, high := 24, low := 16
                 wt := false }
      ∧ t.ntc = { evPending := 0, evEnable := 0, evLevel := 0, faults := 0, f2Detail := 0, level := 0, stack := []
                  nestOff := false, quiet := 0, threshold := 1, timeout := 0, unannounced := 0, timer := none }
      ∧ t.pwr = { state := .resetHeld, idleTimer := 0, intent := false, dozeDelay := 50, powerUp := none, mediaOn := true }
      ∧ t.rst = { resetnLow := s.rst.resetnLow, inReset := if k = .port then none else some k, portReset := k = .port
                  nen := false, cause := k, collision := none }
      ∧ t.hpi.log = { reason := none, target := 0, cmdCode := 0, count := 0 } ∧ t.hpi.snapshot = none
      ∧ (k = .port → t.hpi = { s.hpi with
          log := t.hpi.log, snapshot := none
          captured := s.hpi.captured.map fun c => { c with effect := .dropped } })
      ∧ (k ≠ .port → t.hpi.frame = none ∧ t.hpi.captured = none ∧ t.hpi.selected = s.hpi.selected
          ∧ t.hpi.phase = (if s.hpi.selected = true then .discarding else .idle)
          ∧ t.hpi.sdo = if s.hpi.selected = true then .low else .highZ)
      ∧ t.mm = { flash := t.mm.flash, groups := t.mm.groups, defects := s.mm.defects
                 map := { unlisted := { state := .never, target := none, seq := 0 }, items := [] }, seq := 1
                 hostOpen := none, reclaimOpen := none, commitNotes := [], reclaimFill := false, victim := none
                 relocQueue := [], relocCopy := none, readOnly := false, port := none
                 health := { correctedReads := 0, correctedBits := 0, uncorrectableReads := 0, relocationsDone := 0
                             relocationsDropped := 0, mountTorn := 0, mountMetaErrors := 0, mountReerased := 0
                             mountClosed := 0 } }
      ∧ (∀ g,
        let past : Nat := match s.mm.port with
          | some { op := .program l _, .. } => if l / 64 = g then l % 64 + 1 else 0
          | _ => 0
        t.group g = { s.group g with
          state := if (s.group g).state = .retiring ∨ (s.group g).state = .retired then (s.group g).state else .free
          nextFree := past })
      ∧ ∀ loc, t.cell loc = (match s.mm.port with
        | some { op := .program l p, .. } =>
          if l = loc then some { metadata := p.metadata, data := p.data, complete := false, rotten := p.rotten }
          else s.cell loc
        | _ => s.cell loc)

/-- What causes a full reset: loss or rise of the supply, RESETn going low, and a write that sets PORT_CONFIG.RESET outside
RESET_HELD (R13, R175); what it leaves is FullResetLeavesTheMedia. When it ends the mount begins, at the first group that is
not RETIRED (R138, R139, R175). RESETn rising ends only a PIN reset; the end of a POR begins the mount whatever RESETn is
(the model's reading, log 20). A PIN_RESET while RESETn is low, a PIN_RESET_RELEASE while it is high and a POR_END without a
POR change nothing (the model's choice, log 12). -/
def Obligations.MountBeginsAfterFullReset : Prop :=
  (∀ s : State, s.AtRest →
    exec .por s = .next (endUnit (fullReset .por s))
      ∧ (s.rst.resetnLow = false →
        exec .pinReset s = .next (endUnit (fullReset .pin { s with rst := { s.rst with resetnLow := true } })))
      ∧ (s.rst.resetnLow = true → exec .pinReset s = .next (endUnit s))
      ∧ ∀ w, s.hpi.acceptsWrite 0x02 = true →
        (w = 1 → s.held = false → exec (.portReset w) s = .next (endUnit (fullReset .port s.counted)))
          ∧ (w.getLsbD 0 = true → s.held = true → exec (.portReset w) s = .next (endUnit s.counted))
          ∧ (w.getLsbD 0 = true → w ≠ 1 → s.held = false →
            exec (.portReset w) s = .next (endUnit (reject .badRegisterValue 0x02 0 s.counted))))
    ∧ (∀ s : State, s.AtRest →
    (s.rst.inReset = some .por →
        exec .porEnd s = .next (endUnit (startMount { s with rst := { s.rst with inReset := none } })))
      ∧ (s.rst.inReset ≠ some .por → exec .porEnd s = .next (endUnit s))
      ∧ (s.rst.resetnLow = true → s.rst.inReset = some .pin → exec .pinResetRelease s =
          .next (endUnit (startMount { s with rst := { s.rst with resetnLow := false, inReset := none } })))
      ∧ (s.rst.resetnLow = true → s.rst.inReset ≠ some .pin →
        exec .pinResetRelease s = .next (endUnit { s with rst := { s.rst with resetnLow := false } }))
      ∧ (s.rst.resetnLow = false → exec .pinResetRelease s = .next (endUnit s))
      ∧ ∀ w, s.hpi.acceptsWrite 0x02 = true →
        (w = 0 → s.held = true → exec (.portResetRelease w) s = .next (endUnit
            (startMount { s.counted with rst := { s.rst with portReset := false } })))
          ∧ (w = 0 → s.held = false → exec (.portResetRelease w) s = .next (endUnit s.counted))
          ∧ (1 < w.toNat → s.held = true → exec (.portResetRelease w) s = .next (endUnit s.counted))
          ∧ (1 < w.toNat → s.held = false → exec (.portResetRelease w) s =
              .next (endUnit (reject .badRegisterValue 0x02 0 s.counted))))
    ∧ ∀ s : State, s.StoresSound →
      let fresh : Mount :=
        { phase := .scan, scanned := [], fullGroups := [], torn := 0, metaErrors := 0, reerased := 0, closed := 0
          firstMetaError := none, raisedF3 := false }
      (∀ g < 4096, (s.group g).state ≠ .retired → (∀ h < g, (s.group h).state = .retired) → startMount s =
          { s with
            mount := some fresh
            mm := { s.mm with
              port := some { req := .mount, op := if (s.group g).erasing = true then .erase g else .read (g * 64)
                             ticks := 0 } } })
        ∧ ((∀ g < 4096, (s.group g).state = .retired) →
          startMount s = { s with mount := some { fresh with phase := .resolution } })

/-! ### Reservations and hard faults -/

/-- How reservations are broken (R106) and made (R104), and how a hard fault is raised (R160) or collides (R163). That it also
collides where it is itself outstanding already is the model's choice between the two rules (log 43). -/
def Obligations.ReservationsAreBrokenAndMade : Prop :=
  ∀ s : State,
    (∀ (p : Rsv → Bool) (cause : BreakCause),
        (s.rvt.entries.filter p = [] → breakWhere p cause s = s)
          ∧ ∀ last, (s.rvt.entries.filter p).getLast? = some last → breakWhere p cause s = { s with
              rvt := { entries := s.rvt.entries.filter fun r => !p r, lost := some { cause := cause, token := last.token } }
              ntc := { s.ntc with evPending := s.ntc.evPending ||| 4 } })
      ∧ (∀ r : Rsv,
        ((∃ e ∈ s.rvt.entries, e.token = r.token) → createRsv r s =
            { s with rvt := { s.rvt with entries := (s.rvt.entries.filter fun e => e.token != r.token) ++ [r] } })
          ∧ ((∀ e ∈ s.rvt.entries, e.token ≠ r.token) → s.rvt.entries.length < 4 →
            createRsv r s = { s with rvt := { s.rvt with entries := s.rvt.entries ++ [r] } })
          ∧ ∀ oldest rest, (∀ e ∈ s.rvt.entries, e.token ≠ r.token) → s.rvt.entries = oldest :: rest →
            4 ≤ s.rvt.entries.length → createRsv r s = { s with
              rvt := { entries := rest ++ [r], lost := some { cause := .evicted, token := oldest.token } }
              ntc := { s.ntc with evPending := s.ntc.evPending ||| 4 } })
      ∧ (∀ f, raiseFault f s = breakWhere (fun _ => true) .fault
          { s with ntc := { s.ntc with faults := s.ntc.faults ||| BitVec.ofNat 4 (2 ^ f.index) } })
      ∧ ∀ f, f ≠ .f1 →
        let out (g : FaultCode) : Prop :=
          g ≠ .f1 ∧ (s.ntc.pendingFault g = true ∨ s.ntc.level = 7 + g.index ∨ 7 + g.index ∈ s.ntc.stack)
        ((∀ g, out g → g.index ≤ f.index) → raiseHard f s = raiseFault f s)
          ∧ ∀ h, out h → (∀ g, out g → g.index ≤ h.index) → f.index < h.index →
            raiseHard f s = partialReset .collision (some (h, f)) s

/-! ### The starts of commands -/

/-- When a start is due (R26, R27): of the oldest slot not yet applied, once it is LOADED (a WRITE) or holds its buffer
(READ, DESCRIBE, HEALTH), with no apply in progress, no freeze, no mount, and the part IDLE or ACTIVE; and which row starts a
WRITE (R27, R64), a HEALTH (R78, R80) and every other command: the one of its name. The starts that only enter APPLYING, and
those of the commands that break reservations at their commit point (R27, R58, R81, R83). -/
def Obligations.CommandsEnterApplying : Prop :=
  ∀ (s : State) (n : Fin 8),
    let apply (k : StartKind) (w : Wait) : Apply :=
      { slot := n, kind := k, step := 0, wait := w, seq0 := 0, accepted := [], pendingLocs := [], noteLoc := none
        heldRetry := false }
    let begun (k : StartKind) (w : Wait) (sl : Slot) : State :=
      { s with csq := { s.csq with
          slots := s.csq.slots.set n.val { sl with state := .applying } n.isLt, apply := some (apply k w) } }
    let protect : Host.Outcome State Fault Refusal := .next (endUnit (completeSlot n .writeProtected 0 s))
    let overlap (r : Rsv) : Bool := r.overlaps (s.slot n).desc.folio (s.slot n).desc.count
    let unapplied (m : Fin 8) : Prop := (s.slot m).state ∈ [SlotState.queued, .loading, .loaded]
    (s.due = some (.start n) ↔ s.csq.apply = none ∧ s.frozen = false ∧ s.mount = none
        ∧ (s.pwr.state = .active ∨ s.pwr.state = .idle)
        ∧ (∃ older rest, s.csq.runQueue = older ++ n :: rest ∧ unapplied n ∧ ∀ m ∈ older, ¬unapplied m)
        ∧ ((s.slot n).desc.cmd = .write → (s.slot n).state = .loaded)
        ∧ ((s.slot n).desc.cmd ∈ [Cmd.read, .describe, .health] → ∃ b, (s.buf b).holder = some n))
      ∧ (∀ (d : Desc) (wt : Bool),
        (d.cmd = .write → d.startKind wt =
            if d.atom = true then .writeAtomic else if d.thru = true ∨ wt = true then .writeThrough else .writeCached)
          ∧ (d.cmd = .health → d.startKind wt = if d.aux = 0 then .healthCounters else .healthDefectList)
          ∧ ∀ p ∈ [(Cmd.read, StartKind.read), (.trim, .trim), (.prefetch, .prefetch), (.clean, .clean), (.purge, .purge),
              (.discard, .discard), (.flush, .flush), (.sync, .sync), (.describe, .describe), (.sleep, .sleep),
              (.eraseAll, .eraseAll)], d.cmd = p.1 → d.startKind wt = p.2)
      ∧ (s.Starts n .read → exec .read s = .next (endUnit (begun .read .between (s.slot n))))
      ∧ (s.Starts n .prefetch → exec .prefetch s = .next (endUnit (begun .prefetch .between (s.slot n))))
      ∧ (s.Starts n .sleep → exec .sleep s = .next (endUnit
          (begun .sleep .forSleep { s.slot n with detail := BitVec.ofNat 32 s.dirtyCount })))
      ∧ (s.Starts n .discard → exec .discard s =
          .next (endUnit (breakWhere overlap .discard (begun .discard .between (s.slot n)))))
      ∧ (s.Starts n .trim →
        (s.mm.readOnly = true → exec .trim s = protect)
          ∧ (s.mm.readOnly = false → exec .trim s =
            .next (endUnit (breakWhere overlap .trim (begun .trim .between (s.slot n))))))
      ∧ (s.Starts n .eraseAll →
        (s.mm.readOnly = true → exec .eraseAll s = protect)
          ∧ (s.mm.readOnly = false → exec .eraseAll s =
            .next (endUnit (breakWhere (fun _ => true) .erase (begun .eraseAll .between (s.slot n))))))

/-- The commit point of a WRITE on each of its paths (R58, R64, R105, R55): a bad buffer, then read-only mode, then the
conditional check end it; otherwise it is APPLYING, the entry that satisfied it is consumed, and the overlapping ones are
broken. -/
def Obligations.WriteCommitPointChecks : Prop :=
  ∀ (s : State) (n : Fin 8) (bad : Bool) (c : Bool → Instr) (k : StartKind),
    (c, k) ∈ [(Instr.writeCached, StartKind.writeCached), (.writeThrough, .writeThrough), (.writeAtomic, .writeAtomic)] →
    s.Starts n k →
    let d := (s.slot n).desc
    let satisfies (r : Rsv) : Bool :=
      r.token == d.token && decide (r.start ≤ d.folio ∧ d.folio + d.count ≤ r.start + r.length)
    let overlap (r : Rsv) : Bool := decide (r.start < d.folio + d.count ∧ d.folio < r.start + r.length)
    (bad = true → exec (c bad) s = .next (endUnit (completeSlot n .bufferError 0
        (setSlot n { s.slot n with flags := CompFlags.none, detail := 0 } (raiseFault .f4 s)))))
      ∧ (bad = false → s.mm.readOnly = true → exec (c bad) s = .next (endUnit (completeSlot n .writeProtected 0 s)))
      ∧ (bad = false → s.mm.readOnly = false → d.cond = true → (∀ r ∈ s.rvt.entries, satisfies r = false) →
        exec (c bad) s = .next (endUnit (completeSlot n .condFail 0 s)))
      ∧ (bad = false → s.mm.readOnly = false → (d.cond = false ∨ ∃ r ∈ s.rvt.entries, satisfies r = true) →
        exec (c bad) s = .next (endUnit (breakWhere overlap .write { s with
          csq := { s.csq with
            slots := s.csq.slots.set n.val { s.slot n with state := .applying } n.isLt
            apply := some { slot := n, kind := k, step := 0, wait := .between, seq0 := 0, accepted := [], pendingLocs := []
                            noteLoc := none, heldRetry := false } }
          rvt := { s.rvt with
            entries := if d.cond = true then s.rvt.entries.eraseP satisfies else s.rvt.entries } })))

/-- The commit points of the commands that settle (R72, R74, R76, R29): what each records, what a PURGE does at once to the
lines of its range (the CLEAN ones INVALID, with the triples recorded for them satisfied, R73, R85; the DIRTY ones marked),
and SETTLING, which ends in the same unit where its condition already holds. -/
def Obligations.SettlingCommandsRecord : Prop :=
  ∀ (s : State) (n : Fin 8),
    let d := (s.slot n).desc
    let triple (l : Fin 32) : Triple := { line := l, folio := (s.line l).folio, version := (s.line l).version }
    let within (l : Fin 32) : Bool := decide (d.folio ≤ (s.line l).folio ∧ (s.line l).folio < d.folio + d.count)
    let settles (sl : Slot) : Host.Outcome State Fault Refusal := .next (endUnit (settleSlots (setSlot n sl s)))
    (s.Starts n .clean →
        let ls := (List.finRange 32).filter fun l => (s.line l).state == .dirty && within l
        exec .clean s = settles { (s.slot n) with
          state := .settling, triples := ls.map triple, foliosDone := ls.length, detail := 0 })
      ∧ (s.Starts n .flush →
        let ls := (List.finRange 32).filter fun l => (s.line l).state == .dirty
        exec .flush s = settles { (s.slot n) with
          state := .settling, triples := ls.map triple, foliosDone := 0, detail := BitVec.ofNat 32 ls.length })
      ∧ (s.Starts n .sync → exec .sync s = settles { (s.slot n) with
          state := .settling, foliosDone := 0
          detail := BitVec.ofNat 32 ((s.older n).filter fun m => (s.slot m).state != .done).length })
      ∧ (s.Starts n .purge → ∃ u,
        let cached := (List.finRange 32).filter fun l => (s.line l).state != .invalid && within l
        let clean := cached.filter fun l => (s.line l).state == .clean
        exec .purge s = .next (endUnit (settleSlots u))
          ∧ (∀ l, u.line l =
            if (s.line l).state = .clean ∧ within l = true then
              { s.line l with state := .invalid, purgeMark := none, data := [] }
            else if (s.line l).state = .dirty ∧ within l = true then { s.line l with purgeMark := some n }
            else s.line l)
          ∧ (∀ m,
            let sl := s.slot m
            let partly := cached.any fun l => (s.line l).state == .dirty && (s.line l).purgeMark == some m
            let left : Slot := { sl with
              triples := sl.triples.filter fun r => !clean.contains r.line
              flags := { sl.flags with purgePartial := sl.flags.purgePartial || partly } }
            u.slot m = if m = n then { left with
              state := .settling, foliosDone := cached.length, detail := sl.detail + BitVec.ofNat 32 clean.length } else left)
          ∧ u = { s with
              csq := { s.csq with slots := u.csq.slots }
              fc := { s.fc with
                lines := u.fc.lines, dirtyList := clean.foldl (fun list l => list.erase l) s.fc.dirtyList } })

/-- DESCRIBE and HEALTH place their record of 256 words and enter UNLOADING (R77, R78, R80), in the unit of their start (the
model's reading, log 18); the words of the three records; and the free count (R120), the reserve (R133) and the number of
RETIRING groups, which they and MEDIA_STATUS show. -/
def Obligations.RecordsArePlaced : Prop :=
  (∀ (s : State) (n : Fin 8) (b : BufId), s.bufOf n = some b →
    let placed (detail : Word) (words : FolioData) : Host.Outcome State Fault Refusal :=
      .next (endUnit (setSlot n { s.slot n with state := .unloading, detail := detail }
        (setBuf b { s.buf b with words := (s.buf b).words ++ words } s)))
    (s.Starts n .describe → exec .describe s = placed 0 describeRecord)
      ∧ (s.Starts n .healthCounters → exec .healthCounters s = placed (s.slot n).desc.aux s.healthRecord)
      ∧ (s.Starts n .healthDefectList → exec .healthDefectList s = placed (s.slot n).desc.aux s.defectRecord))
    ∧ describeRecord =
      [0x256, 1, 1024, 245760, 16, 8, 32, 4, 2, 40, 28, 64, 4096, 3000] ++ List.replicate 242 0
    ∧ ∀ s : State,
      let h := s.mm.health
      let nat (n : Nat) : Word := BitVec.ofNat 32 n
      s.healthRecord.length = 256 ∧ s.healthRecord.head? = some 0
        ∧ s.healthRecord.drop 4 =
          [nat s.reserve, nat s.mm.defects.length, nat (s.groupsIn .retiring).length, nat s.freeCount
           , if s.mm.readOnly = true then 1 else 0, h.correctedReads, h.correctedBits, h.uncorrectableReads
           , h.relocationsDone, h.relocationsDropped, h.mountTorn, h.mountMetaErrors, h.mountReerased, h.mountClosed
           , s.mm.seq] ++ List.replicate 237 0
        ∧ (s.defectRecord =
          s.mm.defects.map (fun e => nat (2 ^ 31 + 65536 * e.origin.code + e.group))
            ++ List.replicate (256 - s.mm.defects.length) 0)
        ∧ (s.StoresSound → (∀ p ∈ s.mm.groups, p.1 < 4096) →
          let good := (List.range 4096).filter fun g => (s.group g).state != .retired
          let erases := good.map fun g => (s.group g).erases
          good ≠ [] → (s.healthRecord.drop 1).take 3 =
            [nat (erases.min?.getD 0), nat (erases.max?.getD 0), nat (erases.sum / good.length)])
        ∧ (s.StoresSound → (∀ p ∈ s.mm.groups, p.1 < 4096) →
          let number (st : GroupState) : Nat := ((List.range 4096).filter fun g => (s.group g).state == st).length
          s.freeCount = number .free ∧ s.reserve = 256 - (number .retired + number .retiring)
            ∧ (s.groupsIn .retiring).length = number .retiring
            ∧ ∀ g, g ∈ s.groupsIn .retiring ↔ g < 4096 ∧ (s.group g).state = .retiring)

/-! ### The steps of an apply -/

/-- The current apply begins its next step (R28), unless it waits for the end of foreground reclaim (R60); a step whose wait
for a line or for reclaim has ended takes its effect (R28, R66, R123). The cache updates of an atomic WRITE wait for reclaim
too (the model's reading of R60, log 28). A line that comes free ends a cached WRITE's wait also where foreground reclaim has
become active during it (the model's choice, log 46). An APPLY_STEP without an apply, or while its step waits, changes
nothing (the model's choice, log 12). What each step does is the next four statements. -/
def Obligations.StepsBeginAndResume : Prop :=
  (∀ (s : State) (a : Apply) (bad : Bool), s.AtRest → s.csq.apply = some a →
    let space := a.kind ∈ [.writeCached, .writeThrough, .writeAtomic] ∨ (a.kind ∈ [.trim, .eraseAll] ∧ a.step = 1)
    (a.wait = .between → s.frozen = false → (3 ≤ s.freeCount ∨ ¬space) →
        exec (.applyStep bad) s = .next (endUnit (stepWork a bad s)))
      ∧ (a.wait = .between → s.frozen = false → s.freeCount < 3 → space →
        exec (.applyStep bad) s = .next (endUnit (setApply (some { a with wait := .forReclaim }) s)))
      ∧ (a.wait ≠ .between ∨ s.frozen = true → exec (.applyStep bad) s = .next (endUnit s)))
    ∧ (∀ (s : State) (a : Apply), s.csq.apply = some a →
      let space := a.kind ∈ [.writeCached, .writeThrough, .writeAtomic] ∨ (a.kind ∈ [.trim, .eraseAll] ∧ a.step = 1)
      (a.kind = .writeCached → a.wait = .forLine → s.allocLine.isSome = true →
          exec .lineWaitEnd s = .next (endUnit (stepWork a false s)))
        ∧ (space → a.wait = .forReclaim → 3 ≤ s.freeCount →
          exec .reclaimForegroundEnd s = .next (endUnit (stepWork a false s))))
    ∧ ∀ (s : State) (bad : Bool), s.AtRest → s.csq.apply = none → exec (.applyStep bad) s = .next (endUnit s)

/-- A READ step (R61, R62, R63): a hit copies the line, an unmapped folio places zeros, a poisoned one ends the apply, a miss
asks for a fill or for a direct read, as a line can be allocated (R88: the lowest INVALID one, then the least recently used
CLEAN one); a bad line is lost and the step goes on as for a miss (R98, R99). The end of the last step ends the apply (R29);
that the slot enters UNLOADING then also in a freeze is the model's choice (R28, R29 and R61 before R56, log 36). -/
def Obligations.ReadStepPlacesItsFolio : Prop :=
  ∀ (s : State) (a : Apply), a.kind = .read →
    let n := a.slot
    let f := (s.slot n).desc.folio + a.step
    let go (u : State) : State :=
      if a.step + 1 < (s.slot n).desc.count then setApply (some { a with step := a.step + 1, wait := .between }) u
      else endPlacing n u
    let miss (u : State) : State := readMiss a f u
    (∀ l, s.findLine f = some l → stepWork a false s = go (placeFolio n (s.line l).data (touch l s)))
      ∧ (∀ l, s.findLine f = some l → (s.line l).state ≠ .dirty →
        stepWork a true s = miss (raiseFault .f4 (invalidate l s)))
      ∧ (∀ l, s.findLine f = some l → (s.line l).state = .dirty → stepWork a true s = miss (dirtyLineError l s))
      ∧ (∀ bad, s.findLine f = none → stepWork a bad s = miss s)
      ∧ ((s.mapEntry f).state = .never ∨ (s.mapEntry f).state = .trimmed → miss s = go (placeFolio n
          (List.replicate 256 0) (setSlot n { s.slot n with flags := { (s.slot n).flags with unmapped := true } } s)))
      ∧ ((s.mapEntry f).state = .poisoned → miss s =
        endPlacing n (setSlot n { s.slot n with status := .unreadable, detail := BitVec.ofNat 32 f } s))
      ∧ (∀ l, (s.mapEntry f).state = .mapped → s.allocLine = some l → miss s =
        setApply (some { a with wait := .forMedia (.fill l f) }) (setLine l { s.line l with
          state := .filling, folio := f, version := (s.line l).version + 1, purgeMark := none, data := [] } s))
      ∧ ((s.mapEntry f).state = .mapped → s.allocLine = none →
        miss s = setApply (some { a with wait := .forMedia (.direct f) }) s)
      ∧ ∀ u : State, let sl := u.slot n
        (u.wordsOf n = [] → endPlacing n u = completeSlot n sl.status 0 (settleSlots u))
          ∧ (u.wordsOf n ≠ [] → (sl.desc.cmd ≠ .read ∨ sl.desc.rsv = false) →
            endPlacing n u = setSlot n { sl with state := .unloading } (setApply none u))
          ∧ (u.wordsOf n ≠ [] → sl.desc.cmd = .read → sl.desc.rsv = true →
            endPlacing n u =
              setSlot n { sl with state := .unloading, flags := { sl.flags with rsvMade := true } }
                (createRsv { token := sl.desc.token, start := sl.desc.folio, length := sl.desc.count }
                  (setApply none u)))
          ∧ let holds (l : Fin 32) : Prop := (u.line l).state ≠ .invalid ∧ (u.line l).folio = f
            (∀ l, u.findLine f = some l ↔ holds l ∧ ∀ m < l, ¬holds m) ∧ (u.findLine f = none ↔ ∀ l, ¬holds l)
              ∧ (∀ l, (u.line l).state = .invalid → (∀ m < l, (u.line m).state ≠ .invalid) → u.allocLine = some l)
              ∧ ((∀ l, (u.line l).state ≠ .invalid) → ∀ l older rest, u.fc.lru = older ++ l :: rest →
                (u.line l).state = .clean → (∀ m ∈ older, (u.line m).state ≠ .clean) → u.allocLine = some l)
              ∧ ((∀ l, (u.line l).state ≠ .invalid) → (∀ l ∈ u.fc.lru, (u.line l).state ≠ .clean) → u.allocLine = none)

/-- A PREFETCH step (R70) passes over a cached or unmapped folio and asks for a fill of any other; without a line the PREFETCH
ends, the position at hand counted (log 9). -/
def Obligations.PrefetchStepFillsOrPasses : Prop :=
  ∀ (s : State) (a : Apply) (bad : Bool), a.kind = .prefetch →
    let n := a.slot
    let f := (s.slot n).desc.folio + a.step
    ((s.findLine f ≠ none ∨ (s.mapEntry f).state ≠ .mapped) → stepWork a bad s =
        if a.step + 1 < (s.slot n).desc.count then setApply (some { a with step := a.step + 1, wait := .between }) s
        else completeSlot n .ok (a.step + 1) (settleSlots s))
      ∧ (∀ l, s.findLine f = none → (s.mapEntry f).state = .mapped → s.allocLine = some l → stepWork a bad s =
        setApply (some { a with wait := .forMedia (.fill l f) }) (setLine l { s.line l with
          state := .filling, folio := f, version := (s.line l).version + 1, purgeMark := none, data := [] } s))
      ∧ (s.findLine f = none → (s.mapEntry f).state = .mapped → s.allocLine = none →
        stepWork a bad s = completeSlot n .ok (a.step + 1) (settleSlots s))

/-- A cached WRITE step (R65, R66) writes its folio to the line that holds it or to one it allocates, or waits for a line; what
the write does to the line, the dirty list, the last-use order, an older PURGE and the folio's poison (R86, R87, R89, R75,
R119). -/
def Obligations.CachedWriteStepWritesItsLine : Prop :=
  (∀ (s : State) (a : Apply) (bad : Bool), a.kind = .writeCached →
    let n := a.slot
    let f := (s.slot n).desc.folio + a.step
    let go (u : State) : State :=
      if a.step + 1 < (s.slot n).desc.count then setApply (some { a with step := a.step + 1, wait := .between }) u
      else completeSlot n .ok (s.slot n).desc.count (settleSlots u)
    (∀ l, (s.findLine f = some l ∨ (s.findLine f = none ∧ s.allocLine = some l)) →
        stepWork a bad s = go (writeDirty l f (((s.wordsOf n).drop (256 * a.step)).take 256) s))
      ∧ (s.findLine f = none → s.allocLine = none → stepWork a bad s = setApply (some { a with wait := .forLine }) s))
    ∧ ∀ (s : State) (l : Fin 32) (f : Nat) (data : FolioData),
      let t := writeDirty l f data s
      t.line l = { s.line l with
          state := .dirty, folio := f, version := (s.line l).version + 1, purgeMark := none, data := data }
        ∧ (∀ m, m ≠ l → t.line m = s.line m)
        ∧ t.fc.dirtyList = (if l ∈ s.fc.dirtyList then s.fc.dirtyList else s.fc.dirtyList ++ [l])
        ∧ t.fc.lru = s.fc.lru.erase l ++ [l] ∧ t.fc.ticket = s.fc.ticket
        ∧ (∀ m, t.slot m = if (s.line l).purgeMark = some m then
            { s.slot m with flags := { (s.slot m).flags with purgePartial := true } } else s.slot m)
        ∧ (∀ g, g ≠ f → t.mapEntry g = s.mapEntry g)
        ∧ (t.mapEntry f).target = (s.mapEntry f).target ∧ (t.mapEntry f).seq = (s.mapEntry f).seq
        ∧ ((s.mapEntry f).state ≠ .poisoned → t.mapEntry f = s.mapEntry f)
        ∧ ((s.mapEntry f).state = .poisoned →
          ((s.mapEntry f).target = none → (t.mapEntry f).state = .never)
            ∧ ∀ loc c, (s.mapEntry f).target = some loc → s.cell loc = some c →
              (t.mapEntry f).state = if c.metadata.kind = .trimNote then .trimmed else .mapped)
        ∧ t = { s with
            csq := { s.csq with slots := t.csq.slots }
            fc := { s.fc with lines := t.fc.lines, dirtyList := t.fc.dirtyList, lru := t.fc.lru }
            mm := { s.mm with map := t.mm.map } }

/-- The steps that program (R67, R145, R69, R83) request their program with the sequence that R115 gives; the others
invalidate the range (TRIM, ERASE_ALL, DISCARD, R71), unmap it, or update the cache (R68). A line made INVALID leaves the dirty
list and loses its purge mark, and the triples recorded for it are satisfied (R85, R73). A DISCARD has raced a ticket in flight
that was captured from the folio one of its lines holds now (R71; that a ticket of the line's earlier folio does not count
is the model's reading, log 10). The update of an atomic WRITE is made even where a ticket of higher sequence has landed since
the offer of the folio was accepted (the model's choice, log 42). -/
def Obligations.ProgrammingStepsRequest : Prop :=
  (∀ (s : State) (a : Apply) (bad : Bool),
    let n := a.slot
    let d := (s.slot n).desc
    let data (i : Nat) : FolioData := ((s.wordsOf n).drop (256 * i)).take 256
    let request (b : Apply) (m : Metadata) (words : FolioData) (taken : Nat) : State :=
      { s with
        csq := { s.csq with
          apply := some { b with wait := .forMedia (.prog { metadata := m, data := words, rotten := false }) } }
        mm := { s.mm with seq := s.mm.seq + BitVec.ofNat 32 taken } }
    let finish (done : Nat) (u : State) : State := completeSlot n .ok done (settleSlots u)
    let cached (first count : Nat) : List (Fin 32) := (List.finRange 32).filter fun l => (s.line l).state != .invalid
      && decide (first ≤ (s.line l).folio ∧ (s.line l).folio < first + count)
    (a.kind = .writeThrough → stepWork a bad s =
        request a { kind := .data, start := d.folio + a.step, count := 0, seq := s.mm.seq, copyMark := false, base := 0 }
          (data a.step) 1)
      ∧ (a.kind = .writeAtomic → a.step = 0 → 0 < d.count → stepWork a bad s =
        request { a with seq0 := s.mm.seq }
          { kind := .tentative, start := d.folio, count := 0, seq := s.mm.seq, copyMark := false, base := s.mm.seq }
          (data 0) (d.count + 1))
      ∧ (a.kind = .writeAtomic → 0 < a.step → a.step < d.count → stepWork a bad s =
        request a { kind := .tentative, start := d.folio + a.step, count := 0, seq := a.seq0 + BitVec.ofNat 32 a.step
                    copyMark := false, base := a.seq0 } (data a.step) 0)
      ∧ (a.kind = .writeAtomic → 0 < a.step → a.step = d.count → stepWork a bad s =
        request a { kind := .commitNote, start := d.folio, count := d.count, seq := a.seq0 + BitVec.ofNat 32 d.count
                    copyMark := false, base := a.seq0 } (List.replicate 256 0) 0)
      ∧ (∀ i rest, a.kind = .writeAtomic → d.count < a.step → a.accepted = i :: rest → rest ≠ [] →
        stepWork a bad s = setApply (some { a with step := a.step + 1, wait := .between, accepted := rest })
          (cacheUpdate (d.folio + i) (data i) s))
      ∧ (∀ i, a.kind = .writeAtomic → d.count < a.step → a.accepted = [i] → stepWork a bad s =
        finish d.count (setApply (some { a with accepted := [] }) (cacheUpdate (d.folio + i) (data i) s)))
      ∧ (∀ k, k = a.kind → (k = .trim ∨ k = .eraseAll) →
        let range : Nat × Nat := if k = .eraseAll then (0, 245760) else (d.folio, d.count)
        let ls := cached range.1 range.2
        (a.step = 0 → stepWork a bad s = setApply (some { a with step := 1, wait := .between })
            (modSlot n (fun sl => { sl with detail := BitVec.ofNat 32 ls.length }) (invalidateAll ls s)))
          ∧ (a.step = 1 → stepWork a bad s =
            request { a with seq0 := s.mm.seq } { kind := .trimNote, start := range.1, count := range.2, seq := s.mm.seq
                                                  copyMark := false, base := 0 } (List.replicate 256 0) 1)
          ∧ (a.step = 2 → ∃ u, stepWork a bad s = finish (if k = .trim then d.count else 0) u
              ∧ u = { s with mm := { s.mm with map := u.mm.map } }
              ∧ ∀ f < 245760, u.mapEntry f = if range.1 ≤ f ∧ f < range.1 + range.2 then
                  { state := .trimmed, target := a.noteLoc, seq := a.seq0 } else s.mapEntry f))
      ∧ (a.kind = .discard →
        let ls := cached d.folio d.count
        let raced := ∃ k, s.fc.ticket = some k ∧ k.line ∈ ls ∧ (s.line k.line).folio = k.folio
        let ends (f : CompFlags → CompFlags) : State := finish d.count (modSlot n
          (fun sl => { sl with detail := BitVec.ofNat 32 ls.length, flags := f sl.flags }) (invalidateAll ls s))
        (raced → stepWork a bad s = ends fun f => { f with discardRaced := true })
          ∧ (¬raced → stepWork a bad s = ends fun f => f)))
    ∧ (∀ (s : State) (l : Fin 32),
      let t := invalidate l s
      t = { s with
          csq := { s.csq with slots := t.csq.slots }
          fc := { s.fc with
            lines := s.fc.lines.set l.val { s.line l with state := .invalid, purgeMark := none, data := [] } l.isLt
            dirtyList := s.fc.dirtyList.erase l } }
        ∧ ∀ n, t.slot n = { s.slot n with triples := (s.slot n).triples.filter fun r => r.line != l })
    ∧ ∀ s : State, invalidateAll [] s = s ∧ ∀ l ls, invalidateAll (l :: ls) s = invalidateAll ls (invalidate l s)

/-! ### The media port -/

/-- The port grants in the order of R135: foreground reclaim, the apply, the ticket, background reclaim, relocation. A
program goes to the next free position of its open group and waits while that role is empty (R121), a read to the map's
target as it stands now; where the folio is no longer MAPPED no operation is made, the line is INVALID and the step is
answered (R88, R116). Reclaim copies a note without a read (R125). In a freeze the retry of an abandoned program is not
granted (R131; that it waits for the freeze's end, log 31). A grant at a port that is in use or held back changes nothing
(the model's choice, log 12). -/
def Obligations.PortGrantFollowsTheOrder : Prop :=
  (∀ s : State, s.AtRest →
    let closed := s.mm.port ≠ none ∨ s.mount ≠ none ∨ (s.pwr.state ≠ .active ∧ s.pwr.state ≠ .idle)
    (closed → exec .mediaPortGrant s = .next (endUnit s))
      ∧ (¬closed → s.frozen = false →
        let r := reclaimProgress s
        let granted (u : State) : Prop := exec .mediaPortGrant s = .next (endUnit u)
        let first := r.freeCount < 3
        (∀ u, first → grantReclaim r = some u → granted u)
          ∧ (∀ u, (first → grantReclaim r = none) → grantApply r = some u → granted u)
          ∧ (∀ u, (first → grantReclaim r = none) → grantApply r = none → grantTicket r = some u → granted u)
          ∧ (∀ u, grantApply r = none → grantTicket r = none → ¬first → grantReclaim r = some u → granted u)
          ∧ (∀ u, grantApply r = none → grantTicket r = none → grantReclaim r = none → grantRelocation r = some u →
            granted u)
          ∧ (grantApply r = none → grantTicket r = none → grantReclaim r = none → grantRelocation r = none → granted r)))
    ∧ ∀ s : State,
      let begins (q : Requester) (op : MediaOp) (u : State) : State :=
        { u with mm := { u.mm with port := some { req := q, op := op, ticks := 0 } } }
      let free (g : Nat) : Loc := g * 64 + (s.group g).nextFree
      let waits (u : Option State) : Prop := u = none
      (∀ a p g, s.csq.apply = some a → a.wait = .forMedia (.prog p) → (s.frozen = false ∨ a.heldRetry = false) →
          s.mm.hostOpen = some g → grantApply s = some (begins .apply (.program (free g) p) s))
        ∧ (∀ a p, s.csq.apply = some a → a.wait = .forMedia (.prog p) → s.frozen = true → a.heldRetry = true →
          waits (grantApply s))
        ∧ (∀ a f, s.csq.apply = some a → (s.mapEntry f).state ≠ .mapped →
          let answered (u : State) : State :=
            if a.kind = .prefetch then advancePrefetch a u else readMiss a f u
          (∀ l, a.wait = .forMedia (.fill l f) → grantApply s = some (answered (invalidate l s)))
            ∧ (a.wait = .forMedia (.direct f) → grantApply s = some (answered s))
            ∧ ∀ u : State, ((u.mapEntry f).state = .poisoned → readMiss a f u = readUnreadable a f u)
              ∧ ((u.mapEntry f).state = .never ∨ (u.mapEntry f).state = .trimmed →
                readMiss a f u = advanceRead a (placeFolio a.slot (List.replicate 256 0) (setSlot a.slot
                  { u.slot a.slot with flags := { (u.slot a.slot).flags with unmapped := true } } u))))
        ∧ ((∀ a r, s.csq.apply = some a → a.wait ≠ .forMedia r) → waits (grantApply s))
        ∧ (∀ a p, s.csq.apply = some a → a.wait = .forMedia (.prog p) → s.mm.hostOpen = none → grantApply s = none)
        ∧ (∀ a l f loc, s.csq.apply = some a → (a.wait = .forMedia (.fill l f) ∨ a.wait = .forMedia (.direct f)) →
          (s.mapEntry f).state = .mapped → (s.mapEntry f).target = some loc →
          grantApply s = some (begins .apply (.read loc) s))
        ∧ (∀ k g, s.fc.ticket = some k → s.mm.hostOpen = some g → grantTicket s = some (begins .wbe (.program (free g)
            { metadata := { kind := .data, start := k.folio, count := 0, seq := k.seq, copyMark := false, base := 0 }
              data := k.data, rotten := false }) s))
        ∧ (s.fc.ticket = none ∨ s.mm.hostOpen = none → waits (grantTicket s))
        ∧ (∀ v c g, s.mm.victim = some v → v.copy = some c → s.mm.reclaimOpen = some g →
          grantReclaim s = some (begins .reclaim (.program (free g) c.prog) s))
        ∧ (∀ v c, s.mm.victim = some v → v.copy = none → v.pos < 64 → s.cell (v.group * 64 + v.pos) = some c →
          (c.metadata.kind = .trimNote ∨ c.metadata.kind = .commitNote) →
          let copy : Copy := { src := v.group * 64 + v.pos
                               prog := { metadata := { c.metadata with copyMark := true }, data := c.data, rotten := false } }
          (∀ g, s.mm.reclaimOpen = some g → grantReclaim s = some (begins .reclaim (.program (free g) copy.prog)
              { s with mm := { s.mm with victim := some { v with copy := some copy } } }))
            ∧ (s.mm.reclaimOpen = none → waits (grantReclaim s)))
        ∧ (∀ v c, s.mm.victim = some v → v.copy = some c → s.mm.reclaimOpen = none → waits (grantReclaim s))
        ∧ (∀ v, s.mm.victim = some v → v.copy = none → v.pos < 64 → s.cell (v.group * 64 + v.pos) = none →
          waits (grantReclaim s))
        ∧ (s.mm.victim = none → waits (grantReclaim s))
        ∧ (∀ v c, s.mm.victim = some v → v.copy = none → v.pos < 64 → s.cell (v.group * 64 + v.pos) = some c →
          (c.metadata.kind = .data ∨ c.metadata.kind = .tentative) →
          grantReclaim s = some (begins .reclaim (.read (v.group * 64 + v.pos)) s))
        ∧ (∀ v, s.mm.victim = some v → v.copy = none → 64 ≤ v.pos → grantReclaim s =
          some (begins .reclaim (.erase v.group) (putGroup v.group { s.group v.group with erasing := true } s)))
        ∧ (∀ loc rest, s.mm.relocCopy = none → s.mm.relocQueue = loc :: rest →
          let u : State := { s with mm := { s.mm with relocQueue := rest } }
          grantRelocation s = some (if s.validLoc loc = true then begins .relocation (.read loc) u else u))
        ∧ (∀ c g, s.mm.relocCopy = some c → s.mm.reclaimOpen = some g →
          grantRelocation s = some (begins .relocation (.program (free g) c.prog) s))
        ∧ (∀ c, s.mm.relocCopy = some c → s.mm.reclaimOpen = none → waits (grantRelocation s))
        ∧ (s.mm.relocCopy = none → s.mm.relocQueue = [] → waits (grantRelocation s))

/-- A folio read at the port has its result (R126): it is counted (R79); a good one of an apply step places its data, notes
what was corrected and goes on (R61, R88, R70), an uncorrectable one ends a READ (R62) and is passed over by a PREFETCH; a
worn location is offered to relocation, or counted as dropped where the queue is full or holds it already (R127); an
uncorrectable folio that is its entry's target is poisoned (R119), which breaks the reservations that cover it with cause
MEDIA (R109). Reclaim and relocation prepare their copy (R125, R128), and the copy of an uncorrectable folio reads as
uncorrectable again. A removed command's read places nothing (R178); that it still offers its worn location is the model's
reading (log 5), and that a READ whose last step ends in a freeze leaves APPLYING then is its choice (R28 and R29 before R56,
log 36). -/
def Obligations.ReadResultIsHandled : Prop :=
  (∀ (s : State) (loc : Loc) (r : ReadResult), (∀ c, s.cell loc = some c → c.rotten = true → r = .uncorrectable) →
    let h := s.mm.health
    let bits : Nat := match r with | .corrected b => b | _ => 0
    let up (w : Word) (n : Nat) : Word := BitVec.ofNat 32 (min (w.toNat + n) (2 ^ 32 - 1))
    let counted : Health := match r with
      | .clean => h
      | .corrected b => { h with correctedReads := up h.correctedReads 1, correctedBits := up h.correctedBits b }
      | .uncorrectable => { h with uncorrectableReads := up h.uncorrectableReads 1 }
    let c : State := { s with mm := { s.mm with port := none, health := counted } }
    let worn : State := if 28 < bits then offerRelocation loc c else c
    let data := s.dataAt loc
    let copied (x : Cell) (rotten : Bool) : Copy :=
      { src := loc
        prog := { metadata := { x.metadata with
                    copyMark := true, kind := if x.metadata.kind = .tentative then .data else x.metadata.kind }
                  data := x.data, rotten := rotten } }
    let done (u : State) : Prop := exec (.mediaReadComplete r) s = .next (endUnit u)
    (∀ a, s.PortRuns .apply (.read loc) → s.csq.apply = some a →
        (∀ l f, a.wait = .forMedia (.fill l f) →
            (r = .uncorrectable → a.kind = .read → done (readUnreadable a f (invalidate l (poisonTarget loc c))))
              ∧ (r = .uncorrectable → a.kind = .prefetch → done (advancePrefetch a (invalidate l (poisonTarget loc c))))
              ∧ (r ≠ .uncorrectable → a.kind = .read → done (advanceRead a (placeFolio a.slot data
                (noteCorrection a.slot bits (fillLine l data worn)))))
              ∧ (r ≠ .uncorrectable → a.kind = .prefetch → done (advancePrefetch a
                (modSlot a.slot (fun sl => { sl with detail := sl.detail + 1 }) (fillLine l data worn)))))
          ∧ ∀ f, a.wait = .forMedia (.direct f) →
            (r = .uncorrectable → done (readUnreadable a f (poisonTarget loc c)))
              ∧ (r ≠ .uncorrectable → done (advanceRead a (placeFolio a.slot data (noteCorrection a.slot bits worn)))))
      ∧ (s.PortRuns .orphan (.read loc) → done (if r = .uncorrectable then poisonTarget loc c else worn))
      ∧ (s.PortRuns .relocation (.read loc) →
        (r = .uncorrectable → done (poisonTarget loc c))
          ∧ ∀ x, r ≠ .uncorrectable → s.cell loc = some x →
            done { c with mm := { c.mm with relocCopy := some (copied x false) } })
      ∧ ∀ v x, s.PortRuns .reclaim (.read loc) → s.mm.victim = some v → s.cell loc = some x →
        let u := if r = .uncorrectable then poisonTarget loc c else c
        done { u with mm := { u.mm with
          victim := some { v with copy := some (copied x (decide (r = .uncorrectable))) } } })
    ∧ (∀ (s : State) (q : Requester) (loc : Loc) (r : ReadResult) (c : Cell), s.PortRuns q (.read loc) → q ≠ .mount →
      s.cell loc = some c → c.rotten = true →
      exec (.mediaReadComplete r) s = exec (.mediaReadComplete .uncorrectable) s)
    ∧ (∀ (s : State) (a : Apply),
      let n := a.slot
      let on : State := setApply (some { a with step := a.step + 1, wait := .between }) s
      (a.step + 1 < (s.slot n).desc.count → advanceRead a s = on ∧ advancePrefetch a s = on)
        ∧ ((s.slot n).desc.count ≤ a.step + 1 → advanceRead a s = endPlacing n s
          ∧ advancePrefetch a s = completeSlot n .ok (a.step + 1) (settleSlots s))
        ∧ (∀ f, readUnreadable a f s =
          endPlacing n (setSlot n { s.slot n with status := .unreadable, detail := BitVec.ofNat 32 f } s))
        ∧ noteCorrection n 0 s = s
        ∧ ∀ bits, 0 < bits → noteCorrection n bits s = setSlot n { s.slot n with
            flags := { (s.slot n).flags with corrected := true }
            detail := BitVec.ofNat 32 (max (s.slot n).detail.toNat bits) } s)
    ∧ ∀ (s : State) (loc : Loc),
      (s.cell loc = none → poisonTarget loc s = s)
        ∧ (s.mm.relocQueue.length < 16 → loc ∉ s.mm.relocQueue →
          offerRelocation loc s = { s with mm := { s.mm with relocQueue := s.mm.relocQueue ++ [loc] } })
        ∧ (16 ≤ s.mm.relocQueue.length ∨ loc ∈ s.mm.relocQueue → offerRelocation loc s = { s with mm := { s.mm with
            health := { s.mm.health with
              relocationsDropped := BitVec.ofNat 32 (min (s.mm.health.relocationsDropped.toNat + 1) (2 ^ 32 - 1)) } } })
        ∧ (∀ l data, fillLine l data s = { s with fc := { s.fc with
            lines := s.fc.lines.set l.val { s.line l with state := .clean, data := data } l.isLt
            lru := s.fc.lru.erase l ++ [l] } })
        ∧ ∀ c, s.cell loc = some c →
          let t := poisonTarget loc s
          let f := c.metadata.start
          let covers (e : Rsv) : Bool := decide (e.start ≤ f ∧ f < e.start + e.length)
          ((s.mapEntry f).target ≠ some loc ∨ (s.mapEntry f).state ≠ .mapped → t = s)
            ∧ ((s.mapEntry f).target = some loc → (s.mapEntry f).state = .mapped →
              t = breakWhere covers .media { s with mm := { s.mm with map := t.mm.map } }
                ∧ (∀ g, t.mapEntry g = if g = f then { s.mapEntry f with state := .poisoned } else s.mapEntry g)
                ∧ t.rvt.entries = s.rvt.entries.filter (fun e => !covers e)
                ∧ ∀ last, (s.rvt.entries.filter covers).getLast? = some last →
                  t.rvt.lost = some { cause := .media, token := last.token }
                    ∧ t.ntc = { s.ntc with evPending := s.ntc.evPending ||| 4 })

/-- A program that an apply step requested has landed (R117): write-through offers its folio and updates the cache (R67), a
note is ready for the unmapping (R69), a tentative folio is pending (R145), and the commit note makes the offers of its whole
range (R145 step 3), with its sequence as the WRITE's detail (R68); where none of them is accepted, the WRITE ends in that
unit (the model's choice, log 47). A cache update satisfies the triples of its line and folio at an earlier version (R73),
and gives PURGE_PARTIAL to the PURGE whose mark it removes (R75). The program of a removed command is torn (R178). -/
def Obligations.ProgramLandsForItsStep : Prop :=
  (∀ (s : State) (loc : Loc) (p : Prog),
    let landed := landProgram loc p s
    let done (u : State) : Prop := exec .mediaProgramComplete s = .next (endUnit u)
    (∀ a, s.PortRuns .apply (.program loc p) → s.csq.apply = some a →
        let n := a.slot
        let f := p.metadata.start
        let noted (u : State) : State := modSlot n (fun sl => { sl with detail := p.metadata.seq }) u
        let accepted := (s.mapEntry f).seq.toNat < p.metadata.seq.toNat
        (a.kind = .writeThrough → accepted → done (advanceWrite a (noted (cacheUpdate f p.data
            (putEntry f { state := .mapped, target := some loc, seq := p.metadata.seq } landed)))))
          ∧ (a.kind = .writeThrough → ¬accepted → done (advanceWrite a (noted landed)))
          ∧ (a.kind = .trim ∨ a.kind = .eraseAll →
            done (setApply (some { a with step := a.step + 1, wait := .between, noteLoc := some loc }) landed))
          ∧ (a.kind = .writeAtomic → a.step < (s.slot n).desc.count → done (setApply
            (some { a with step := a.step + 1, wait := .between, pendingLocs := a.pendingLocs ++ [loc] }) landed))
          ∧ (a.kind = .writeAtomic → (s.slot n).desc.count ≤ a.step → done (commitLanded a loc p landed)))
      ∧ (s.PortRuns .orphan (.program loc p) → done (tearProgram loc p s)))
    ∧ (∀ (s : State) (loc : Loc) (p : Prog),
      let t := landProgram loc p s
      let g := loc / 64
      t = { s with mm := { s.mm with
          flash := t.mm.flash, groups := t.mm.groups, hostOpen := t.mm.hostOpen, reclaimOpen := t.mm.reclaimOpen
          port := none } }
        ∧ (∀ l, t.cell l = if l = loc then
            some { metadata := p.metadata, data := p.data, complete := true, rotten := p.rotten } else s.cell l)
        ∧ (∀ h, h ≠ g → t.group h = s.group h)
        ∧ (loc % 64 ≠ 63 ∨ (s.group g).state ≠ .opened → t.group g = { s.group g with nextFree := loc % 64 + 1 }
          ∧ t.mm.hostOpen = s.mm.hostOpen ∧ t.mm.reclaimOpen = s.mm.reclaimOpen)
        ∧ (loc % 64 = 63 → (s.group g).state = .opened → t.group g = { s.group g with state := .full, nextFree := 64 }
          ∧ t.mm.hostOpen = (if s.mm.hostOpen = some g then none else s.mm.hostOpen)
          ∧ t.mm.reclaimOpen = if s.mm.reclaimOpen = some g then none else s.mm.reclaimOpen))
    ∧ (∀ (s : State) (f : Nat) (data : FolioData),
      let t := cacheUpdate f data s
      (s.findLine f = none → s.allocLine = none → t = s)
        ∧ ∀ l, (s.findLine f = some l ∨ (s.findLine f = none ∧ s.allocLine = some l)) →
          t.line l = { s.line l with
              state := .clean, folio := f, version := (s.line l).version + 1, purgeMark := none, data := data }
            ∧ (∀ m, m ≠ l → t.line m = s.line m) ∧ t.fc.dirtyList = s.fc.dirtyList.erase l
            ∧ t.fc.lru = s.fc.lru.erase l ++ [l]
            ∧ (∀ m,
              let sl := s.slot m
              let later (v : Word) : Prop :=
                0 < ((s.line l).version + 1 - v).toNat ∧ ((s.line l).version + 1 - v).toNat < 2 ^ 31
              t.slot m = { sl with
                flags := if (s.line l).purgeMark = some m then { sl.flags with purgePartial := true } else sl.flags
                triples := sl.triples.filter fun r => !decide (r.line = l ∧ r.folio = f ∧ later r.version) })
            ∧ t = { s with
                csq := { s.csq with slots := t.csq.slots }
                fc := { s.fc with lines := t.fc.lines, lru := t.fc.lru, dirtyList := t.fc.dirtyList } })
    ∧ ∀ (s : State) (a : Apply) (loc : Loc) (p : Prog),
      let d := (s.slot a.slot).desc
      let t := commitLanded a loc p s
      let seq (i : Nat) : Word := a.seq0 + BitVec.ofNat 32 i
      let accepted := (List.range d.count).filter fun i => decide ((s.mapEntry (d.folio + i)).seq.toNat < (seq i).toNat)
      a.pendingLocs.length = d.count →
        (∀ i l, a.pendingLocs[i]? = some l → t.mapEntry (d.folio + i) =
            if i ∈ accepted then { state := .mapped, target := some l, seq := seq i } else s.mapEntry (d.folio + i))
          ∧ (∀ f, (f < d.folio ∨ d.folio + d.count ≤ f) → t.mapEntry f = s.mapEntry f)
          ∧ let noted : State := setApply
              (some { a with step := a.step + 1, wait := .between, accepted := accepted, pendingLocs := [] })
              (setSlot a.slot { s.slot a.slot with detail := p.metadata.seq } { s with mm := { s.mm with
                map := t.mm.map
                commitNotes := s.mm.commitNotes
                  ++ [{ start := d.folio, count := d.count, base := a.seq0, seq := p.metadata.seq, loc := loc }] } })
            (accepted ≠ [] → t = noted) ∧ (accepted = [] → t = completeSlot a.slot .ok d.count (settleSlots noted))

/-- A program that fails (R129) or stalls (R131) uses up its position; its group is RETIRING and leaves its role, MEDIA is
pending, and the thresholds of the reserve are evaluated (R133, R134); the requester still waits for the retry. The program
of a removed command only leaves its position torn (R178; that its failure or stall is no other is read from it, log 5). A
stalled erase retires its group, a stalled read is uncorrectable; each raises F3 after that (R131, R163). Where that F3
collides with F4, MEDIA, SPARE and RDONLY of the treatment are pending after the reset (R164; that the treatment lies in the
reset unit is the model's reading, log 35). The model's choices and readings in this besides: a group retired at a reserve of
0 raises SPARE again (log 41); a stalled erase of a mount raises MEDIA alone, and the reserve waits for the mount's end (log
19), and it is counted in mount_reerased (log 23); a READ that stalls at its last read makes its entry before F3 breaks it
(log 38), and enters UNLOADING in the freeze (log 36); an F3 that is itself outstanding already collides with F4 all the same
(log 43); STALL_LIMIT is a whole tick, in SLEEP too (logs 14 and 40). -/
def Obligations.FailuresRetireTheirGroups : Prop :=
  (∀ (s : State) (q : Requester) (loc : Loc) (p : Prog), s.PortRuns q (.program loc p) →
      (q ≠ .orphan → exec .programFail s = .next (endUnit (failProgram .programFail loc p s)))
        ∧ (q = .orphan → exec .programFail s = .next (endUnit (tearProgram loc p s))))
    ∧ (∀ (s : State) (o : Origin) (loc : Loc) (p : Prog),
      let t := failProgram o loc p s
      let g := loc / 64
      t = { s with
          mm := { s.mm with
            port := none, flash := t.mm.flash, groups := t.mm.groups
            hostOpen := if s.mm.hostOpen = some g then none else s.mm.hostOpen
            reclaimOpen := if s.mm.reclaimOpen = some g then none else s.mm.reclaimOpen
            readOnly := s.mm.readOnly || decide (t.reserve ≤ 4) }
          ntc := { s.ntc with evPending := s.ntc.evPending ||| 16 ||| (if t.reserve ≤ 24 then 32 else 0)
            ||| if t.reserve ≤ 4 ∧ s.mm.readOnly = false then 64 else 0 } }
        ∧ (∀ l, t.cell l = if l = loc then
            some { metadata := p.metadata, data := p.data, complete := false, rotten := p.rotten } else s.cell l)
        ∧ t.group g = { s.group g with state := .retiring, origin := some o, nextFree := loc % 64 + 1 }
        ∧ ∀ h, h ≠ g → t.group h = s.group h)
    ∧ (∀ (s : State) (g : Nat) (o : Origin),
      let t := failErase g o s
      t = { s with
          mm := { s.mm with
            port := none, groups := t.mm.groups, victim := none
            defects := if s.mm.defects.length < 256 then s.mm.defects ++ [{ group := g, origin := o }] else s.mm.defects
            relocQueue := s.mm.relocQueue.filter fun l => l / 64 != g
            readOnly := s.mm.readOnly || decide (t.reserve ≤ 4) }
          ntc := { s.ntc with evPending := s.ntc.evPending ||| 16 ||| (if t.reserve ≤ 24 then 32 else 0)
            ||| if t.reserve ≤ 4 ∧ s.mm.readOnly = false then 64 else 0 } }
        ∧ t.group g = { s.group g with state := .retired, origin := some o, erasing := false }
        ∧ ∀ h, h ≠ g → t.group h = s.group h)
    ∧ (∀ (s : State) (loc : Loc) (p : Prog),
      let t := tearProgram loc p s
      let g := loc / 64
      t = { s with mm := { s.mm with
          flash := t.mm.flash, groups := t.mm.groups, hostOpen := t.mm.hostOpen, reclaimOpen := t.mm.reclaimOpen
          port := none } }
        ∧ (∀ l, t.cell l = if l = loc then
            some { metadata := p.metadata, data := p.data, complete := false, rotten := p.rotten } else s.cell l)
        ∧ (∀ h, h ≠ g → t.group h = s.group h)
        ∧ (loc % 64 ≠ 63 ∨ (s.group g).state ≠ .opened → t.group g = { s.group g with nextFree := loc % 64 + 1 }
          ∧ t.mm.hostOpen = s.mm.hostOpen ∧ t.mm.reclaimOpen = s.mm.reclaimOpen)
        ∧ (loc % 64 = 63 → (s.group g).state = .opened → t.group g = { s.group g with state := .full, nextFree := 64 }
          ∧ t.mm.hostOpen = (if s.mm.hostOpen = some g then none else s.mm.hostOpen)
          ∧ t.mm.reclaimOpen = if s.mm.reclaimOpen = some g then none else s.mm.reclaimOpen))
    ∧ (∀ (s : State) (b0 b1 : Option Nat) (op : PortOp), s.AtRest → s.ticking = true → s.mm.port = some op → 400 ≤ op.ticks →
      exec (.stallLimit b0 b1) s = .next (endUnit (tickOp b0 b1 s)))
    ∧ ∀ (s : State) (op : PortOp), s.mm.port = some op →
      let f3 (raised : BitVec 9) (u : State) : State :=
        let v := raiseHard .f3 { u with mount := u.mount.map fun m => { m with raisedF3 := true } }
        if u.ntc.outstanding .f4 = true then { v with ntc := { v.ntc with evPending := v.ntc.evPending ||| raised } } else v
      let lost (u : State) : BitVec 9 := 16 ||| (if u.reserve ≤ 24 then 32 else 0)
        ||| if u.reserve ≤ 4 ∧ s.mm.readOnly = false then 64 else 0
      (op.ticks < 400 → tickStall s = { s with mm := { s.mm with port := some { op with ticks := op.ticks + 1 } } })
        ∧ (400 ≤ op.ticks →
          (∀ loc p, op.op = .program loc p →
            let u := failProgram .stall loc p s
            (op.req ≠ .apply → op.req ≠ .orphan → tickStall s = f3 (lost u) u)
              ∧ (op.req = .orphan → tickStall s = f3 0 (tearProgram loc p s))
              ∧ ∀ a, op.req = .apply → s.csq.apply = some a →
                tickStall s = f3 (lost u) (setApply (some { a with heldRetry := true }) u))
            ∧ (∀ g, op.op = .erase g →
              let u := failErase g .stall s
              (op.req ≠ .mount → tickStall s = f3 (lost u) u)
                ∧ (op.req = .mount → tickStall s = f3 16 (reerased g (some .stall) s)))
            ∧ ∀ loc, op.op = .read loc →
              (op.req ≠ .mount → tickStall s = f3 0 (readResult op.req loc .uncorrectable s))
                ∧ (op.req = .mount → tickStall s =
                  f3 0 (nextPosition loc (classify loc .metadataError { s with mm := { s.mm with port := none } }))))

/-! ### The Writeback Engine, reclaim and relocation -/

/-- The Writeback Engine runs by the triggers of R90, captures the head of the dirty list into a ticket (R91) or loses a bad
line (R99: INVALID, off the dirty list, its triples satisfied, its ticket voided, its folio poisoned, then F4), and settles
the ticket when its program has landed (R93), which satisfies the triples of R73 and no others. "The line's ticket" is one
whose line and folio both match (the model's reading, log 10). A capture that cannot take place changes nothing (the model's
choice, log 12). -/
def Obligations.TicketIsCapturedAndSettled : Prop :=
  (∀ s : State, s.wbeRuns = true ↔
      s.fc.draining = true ∨ s.pwr.intent = true
        ∨ (∃ n, (s.slot n).state = .settling ∧ (s.slot n).desc.cmd ∈ [.clean, .flush, .purge])
        ∨ ∃ a, s.csq.apply = some a ∧ (a.kind = .sleep ∨ a.wait = .forLine))
    ∧ (∀ (s : State) (bad : Bool), s.AtRest →
      let free := s.wbeRuns = true ∧ s.fc.ticket = none ∧ s.frozen = false ∧ s.mount = none
        ∧ (s.pwr.state = .active ∨ s.pwr.state = .idle)
      (∀ l rest, free → s.fc.dirtyList = l :: rest →
          (bad = false → exec (.wbeCapture bad) s = .next (endUnit { s with
              fc := { s.fc with
                lines := s.fc.lines.set l.val { s.line l with voidTicket := false } l.isLt
                dirtyList := rest
                ticket := some { line := l, folio := (s.line l).folio, version := (s.line l).version, seq := s.mm.seq
                                 data := (s.line l).data } }
              mm := { s.mm with seq := s.mm.seq + 1 } }))
            ∧ (bad = true → exec (.wbeCapture bad) s = .next (endUnit (dirtyLineError l s))))
        ∧ (¬free ∨ s.fc.dirtyList = [] → exec (.wbeCapture bad) s = .next (endUnit s)))
    ∧ (∀ (s : State) (l : Fin 32),
      let t := dirtyLineError l s
      let f := (s.line l).folio
      let voided : Bool := (s.line l).voidTicket || s.fc.ticket.any fun k => k.line == l && k.folio == f
      let lost : State := setLine l { s.line l with state := .invalid, purgeMark := none, data := [], voidTicket := voided }
        (invalidate l s)
      let covers (e : Rsv) : Bool := decide (e.start ≤ f ∧ f < e.start + e.length)
      t = raiseFault .f4 (if (s.mapEntry f).state = .poisoned then lost else
          breakWhere covers .media { lost with mm := { s.mm with map := t.mm.map } })
        ∧ (∀ g, t.mapEntry g = if g = f then { s.mapEntry f with state := .poisoned } else s.mapEntry g)
        ∧ (∀ m, t.line m = if m = l then
            { s.line l with state := .invalid, purgeMark := none, data := [], voidTicket := voided } else s.line m)
        ∧ t.fc = { s.fc with lines := t.fc.lines, dirtyList := s.fc.dirtyList.erase l }
        ∧ (∀ n, t.slot n = { s.slot n with triples := (s.slot n).triples.filter fun r => r.line != l })
        ∧ t.ntc.pendingFault .f4 = true ∧ t.rvt.entries = [])
    ∧ (∀ (s : State) (k : Ticket) (loc : Loc) (p : Prog), s.PortRuns .wbe (.program loc p) → s.fc.ticket = some k →
      exec .ticketComplete s = .next (endUnit (settleTicket k loc (landProgram loc p s))))
    ∧ ∀ (s : State) (k : Ticket) (loc : Loc),
      let t := settleTicket k loc s
      let ln := s.line k.line
      let accepted : Prop := ln.voidTicket = false ∧ (s.mapEntry k.folio).seq.toNat < k.seq.toNat
      let own : Prop := ln.voidTicket = false ∧ ln.folio = k.folio ∧ ln.state = .dirty ∧ ln.version = k.version
      let stale (l : Fin 32) : Prop :=
        accepted ∧ s.findLine k.folio = some l ∧ (s.line l).state = .clean ∧ (s.line l).version ≠ k.version
      let dropped (l : Fin 32) : Prop := stale l ∨ (own ∧ ln.purgeMark ≠ none ∧ l = k.line)
      let written (r : Triple) : Prop :=
        r.line = k.line ∧ r.folio = k.folio ∧ (k.version - r.version).toNat < 2 ^ 31
      let list : List (Fin 32) := match s.findLine k.folio with
        | some l => if stale l then s.fc.dirtyList.erase l else s.fc.dirtyList
        | none => s.fc.dirtyList
      t = { s with
          csq := { s.csq with slots := t.csq.slots }
          fc := { s.fc with
            lines := t.fc.lines, ticket := none
            dirtyList := if own ∧ ln.purgeMark ≠ none then list.erase k.line else list }
          mm := { s.mm with map := t.mm.map } }
        ∧ (∀ l, t.line l = if dropped l then { s.line l with state := .invalid, purgeMark := none, data := [] }
          else if own ∧ l = k.line then { ln with state := .clean } else s.line l)
        ∧ (∀ n, t.slot n = { s.slot n with
            triples := (s.slot n).triples.filter fun r => decide (¬written r ∧ ¬dropped r.line)
            purged := if own ∧ ln.purgeMark = some n then (s.slot n).purged + 1 else (s.slot n).purged })
        ∧ (∀ f, t.mapEntry f = if accepted ∧ f = k.folio then { state := .mapped, target := some loc, seq := k.seq }
          else s.mapEntry f)
        ∧ (¬accepted → t.mm = s.mm)

/-- Reclaim chooses its victim wherever a group qualifies (R124), by the validity of R122 (a current target, a live note at
its location, or a pending folio), goes on after each copy, and ends a victim with its erase (R125, R130); a copy moves the
entries that target its source (R118). How it goes on (R125): to the next valid position, past those that are no longer
valid; with every position examined, to the first one that is valid all the same (the model's reading of R125 step 2, log
26); with none valid, it retires a RETIRING victim with its origin, one at the endurance limit with origin WEAR, and comes to
the erase of any other. Relocation's copy moves the entries too, is counted, and raises MEDIA (R128); it moves nothing if its
source no longer holds the copied folio (the model's reading, log 16). A group that is retired while the reserve is 0 counts
as a fall of it and raises SPARE again (the model's choice, log 41), and a RECLAIM_VICTIM_CHOICE that finds nothing to choose
changes nothing (log 12). -/
def Obligations.ReclaimAndRelocationComplete : Prop :=
  (∀ s : State, s.AtRest → s.mm.victim = none → s.frozen = false → s.mount = none →
    (s.pwr.state = .active ∨ s.pwr.state = .idle) →
    let active := s.freeCount < 3 ∨ s.mm.reclaimFill = true ∨ s.groupsIn .retiring ≠ []
    (∀ g, active → s.pickVictim = some g → exec .reclaimVictimChoice s = .next (endUnit (reclaimProgress
        { s with mm := { s.mm with victim := some { group := g, pos := 0, copy := none } } })))
      ∧ ((¬active ∨ s.pickVictim = none) → exec .reclaimVictimChoice s = .next (endUnit s)))
    ∧ (∀ s : State, s.StoresSound →
      (∀ g, g ∈ s.groupsIn .retiring → s.holdsPending g = false →
          (∀ h ∈ s.groupsIn .retiring, s.holdsPending h = false → g ≤ h) → s.pickVictim = some g)
        ∧ ∀ g, (∀ h ∈ s.groupsIn .retiring, s.holdsPending h = true) → s.pickVictim = some g →
          (s.group g).state = .full ∧ s.holdsPending g = false
            ∧ (s.validCount g < 64 ∨ s.holdsTentativeTarget g = true)
            ∧ ∀ h, (s.group h).state = .full → s.fullQualifies h = true →
              s.validCount g < s.validCount h ∨ (s.validCount g = s.validCount h
                ∧ ((s.group g).erases < (s.group h).erases ∨ ((s.group g).erases = (s.group h).erases ∧ g ≤ h))))
    ∧ (∀ s : State, s.StoresSound →
      (s.pickVictim = none ↔ (∀ g, (s.group g).state = .retiring → s.holdsPending g = true)
        ∧ ∀ g, (s.group g).state = .full → s.fullQualifies g = false))
    ∧ (∀ s : State, s.StoresSound → (∀ p ∈ s.mm.map.items, p.1 < 245760) →
      let current (l : Loc) : Prop := ∃ f < 245760, (s.mapEntry f).target = some l
      let pendingAt (l : Loc) : Prop := ∃ a, s.csq.apply = some a ∧ l ∈ a.pendingLocs
      let tentative (l : Loc) (x : Cell) : Prop := s.cell l = some x ∧ x.complete = true ∧ x.metadata.kind = .tentative
      let liveNote (l : Loc) : Prop :=
        ∃ r ∈ s.mm.commitNotes, r.loc = l ∧ ∃ m x, tentative m x ∧ x.metadata.base = r.base ∧ current m
      (∀ l, (s.mm.map.targets l = true ↔ current l) ∧ (s.validLoc l = true ↔ current l ∨ pendingAt l ∨ liveNote l))
        ∧ ∀ g, s.validCount g =
            ((List.range 64).filter fun q => (s.cell (g * 64 + q)).isSome && s.validLoc (g * 64 + q)).length
          ∧ (s.holdsPending g = true ↔ ∃ l, pendingAt l ∧ l / 64 = g)
          ∧ (s.holdsTentativeTarget g = true ↔ ∃ l x, tentative l x ∧ l / 64 = g ∧ current l)
          ∧ (s.fullQualifies g = true ↔
            s.holdsPending g = false ∧ (s.validCount g < 64 ∨ s.holdsTentativeTarget g = true)))
    ∧ (∀ s : State, s.mm.victim = none → reclaimProgress s = s)
    ∧ (∀ (s : State) (v : Victim), s.mm.victim = some v → v.copy ≠ none → reclaimProgress s = s)
    ∧ (∀ (s : State) (v : Victim), s.StoresSound → s.mm.victim = some v → v.copy = none →
      let valid (q : Nat) : Prop := q < 64 ∧ s.cell (v.group * 64 + q) ≠ none ∧ s.validLoc (v.group * 64 + q) = true
      let goesTo (q : Nat) : Prop := reclaimProgress s = { s with mm := { s.mm with victim := some { v with pos := q } } }
      let retires (o : Origin) (falls : Bool) : Prop :=
        let t := reclaimProgress s
        t = { s with
            mm := { s.mm with
              groups := t.mm.groups, victim := none
              defects := if s.mm.defects.length < 256 then s.mm.defects ++ [{ group := v.group, origin := o }]
                else s.mm.defects
              relocQueue := s.mm.relocQueue.filter fun l => l / 64 != v.group
              readOnly := s.mm.readOnly || (falls && decide (t.reserve ≤ 4)) }
            ntc := { s.ntc with evPending := s.ntc.evPending ||| 16
              ||| (if falls = true ∧ t.reserve ≤ 24 then 32 else 0)
              ||| if falls = true ∧ t.reserve ≤ 4 ∧ s.mm.readOnly = false then 64 else 0 } }
          ∧ t.group v.group = { s.group v.group with state := .retired, origin := some o, erasing := false }
          ∧ ∀ h, h ≠ v.group → t.group h = s.group h
      (∀ q, v.pos ≤ q → valid q → (∀ r, v.pos ≤ r → r < q → ¬valid r) → goesTo q)
        ∧ ((∀ r, v.pos ≤ r → ¬valid r) → ∀ q, valid q → (∀ r < q, ¬valid r) → goesTo q)
        ∧ ((∀ q, ¬valid q) →
          (∀ o, (s.group v.group).state = .retiring → (s.group v.group).origin = some o → retires o false)
            ∧ ((s.group v.group).state ≠ .retiring → 3000 ≤ (s.group v.group).erases → retires .wear true)
            ∧ ((s.group v.group).state ≠ .retiring → (s.group v.group).erases < 3000 → goesTo 64)))
    ∧ (∀ (s : State) (loc : Loc) (p : Prog) (v : Victim) (c : Copy),
      s.PortRuns .reclaim (.program loc p) → s.mm.victim = some v → v.copy = some c →
      let u := landCopy c.src loc (landProgram loc p s)
      exec .reclaimCopyComplete s = .next (endUnit (reclaimProgress
        { u with mm := { u.mm with victim := some { v with pos := v.pos + 1, copy := none } } })))
    ∧ (∀ (s : State) (g : Nat) (ok : Bool), s.PortRuns .reclaim (.erase g) → ∃ u,
      exec (.reclaimEraseComplete ok) s = .next (endUnit u)
        ∧ (∀ h, h ≠ g → u.group h = s.group h)
        ∧ (ok = true → u = { s with mm := { s.mm with
              port := none, victim := none, flash := u.mm.flash, groups := u.mm.groups
              relocQueue := s.mm.relocQueue.filter fun l => l / 64 != g } }
            ∧ u.group g =
              { state := .free, origin := none, erases := (s.group g).erases + 1, erasing := false, nextFree := 0 }
            ∧ ∀ l, u.cell l = if l / 64 = g then none else s.cell l)
        ∧ (ok = false → u = { s with
              mm := { s.mm with
                port := none, victim := none, groups := u.mm.groups
                defects := if s.mm.defects.length < 256 then s.mm.defects ++ [{ group := g, origin := .eraseFail }]
                  else s.mm.defects
                relocQueue := s.mm.relocQueue.filter fun l => l / 64 != g
                readOnly := s.mm.readOnly || decide (u.reserve ≤ 4) }
              ntc := { s.ntc with evPending := s.ntc.evPending ||| 16 ||| (if u.reserve ≤ 24 then 32 else 0)
                ||| if u.reserve ≤ 4 ∧ s.mm.readOnly = false then 64 else 0 } }
            ∧ u.group g = { s.group g with state := .retired, origin := some .eraseFail, erasing := false }))
    ∧ (∀ (s : State) (loc : Loc) (p : Prog) (c : Copy), s.PortRuns .relocation (.program loc p) →
      s.mm.relocCopy = some c →
      let landed := landProgram loc p s
      let stands := ∃ x, s.cell c.src = some x ∧ x.metadata.seq = c.prog.metadata.seq
      let ends (v : State) : Prop := exec .relocationCopyComplete s = .next (endUnit { v with
        mm := { v.mm with
          relocCopy := none
          health := { s.mm.health with
            relocationsDone := BitVec.ofNat 32 (min (s.mm.health.relocationsDone.toNat + 1) (2 ^ 32 - 1)) } }
        ntc := { s.ntc with evPending := s.ntc.evPending ||| 16 } })
      (stands → ends (landCopy c.src loc landed)) ∧ (¬stands → ends landed))
    ∧ ∀ (s : State) (src dst : Loc) (f : Nat), s.StoresSound →
      let t := landCopy src dst s
      t = { s with mm := { s.mm with
          map := t.mm.map
          commitNotes := s.mm.commitNotes.map fun r => if r.loc = src then { r with loc := dst } else r } }
        ∧ t.mapEntry f =
          { s.mapEntry f with target := if (s.mapEntry f).target = some src then some dst else (s.mapEntry f).target }

/-! ### Mount -/

/-- The mount scan (R139 to R141): each metadata read classifies its position and goes on with the next one, or ends the
group at the first erased position, where its next free position then stands: one that holds something is FULL, and closed
where positions remain; a re-erase frees or retires its group. Either goes on with the next group that is not RETIRED, or to
the resolution. The end of the mount (R142 to R144): the map holds for every folio its candidate of highest sequence, the
counter stands above every sequence found and every uncommitted atomic WRITE's reach (a torn member of a committed one is
committed too, the model's reading, log 22), the commit notes with a live member are recorded once each (at the copy that the
tie-break prefers, log 21), FULL groups and open groups are as R120, R121 and R141 give them, the counts of the mount replace
HEALTH words 9 to 17, the thresholds and F2 or the collision it causes come in the order of R144, and the mount is over. A
failed re-erase raises MEDIA alone (R165), with the thresholds left to the mount's end (the model's reading of R133 and R144,
log 19), and is counted in mount_reerased like any other (its reading of R139, log 23). An F2 that is itself outstanding
already collides all the same (its choice, log 43). A MOUNT_END in the scan or without a mount changes nothing (its choice,
log 12). A position once classed as a metadata error is so at every later mount (R143), by a mark that the end of the mount
sets and an abandoned mount does not (R138; the model's reading, log 45). -/
def Obligations.MountScansThenResolves : Prop :=
  let onTo (k : Nat) (u v : State) : Prop :=
    (∀ g, k ≤ g → g < 4096 → (u.group g).state ≠ .retired → (∀ h, k ≤ h → h < g → (u.group h).state = .retired) →
        v = { u with mm := { u.mm with
          port := some { req := .mount, op := if (u.group g).erasing = true then .erase g else .read (g * 64), ticks := 0 } } })
      ∧ ((∀ g, k ≤ g → g < 4096 → (u.group g).state = .retired) →
        v = { u with mount := u.mount.map fun m => { m with phase := .resolution } })
  (∀ (s : State) (loc : Loc) (readable : Bool), s.PortRuns .mount (.read loc) →
    let c : State := { s with mm := { s.mm with port := none } }
    let goes (x : ScanClass) : Prop :=
      exec (.mountMetadataReadComplete readable) s = .next (endUnit (nextPosition loc (classify loc x c)))
    (s.cell loc = none →
        exec (.mountMetadataReadComplete readable) s = .next (endUnit (endGroup (loc / 64) (loc % 64) c)))
      ∧ ∀ x, s.cell loc = some x →
        (x.complete = false → goes (.torn readable))
          ∧ (x.complete = true → readable = true → x.metaLost = false → goes .complete)
          ∧ (x.complete = true → readable = false ∨ x.metaLost = true → goes .metadataError))
    ∧ (∀ (s : State) (loc : Loc),
      (∀ x,
        classify loc x s = { s with
            mount := s.mount.map fun m => { m with
              scanned := m.scanned ++ [(loc, x)]
              torn := match x with | .torn _ => m.torn + 1 | _ => m.torn
              metaErrors := if x = .metadataError then m.metaErrors + 1 else m.metaErrors
              firstMetaError := if x = .metadataError ∧ m.firstMetaError = none then some loc else m.firstMetaError } })
        ∧ (loc % 64 < 63 → nextPosition loc s =
          { s with mm := { s.mm with port := some { req := .mount, op := .read (loc + 1), ticks := 0 } } })
        ∧ (loc % 64 = 63 → nextPosition loc s = endGroup (loc / 64) 64 s))
    ∧ (∀ (s : State) (g used : Nat), s.StoresSound →
      ∃ u, onTo (g + 1) u (endGroup g used s)
        ∧ u = { s with mount := u.mount, mm := { s.mm with groups := u.mm.groups } }
        ∧ u.group g = { s.group g with nextFree := used } ∧ (∀ h, h ≠ g → u.group h = s.group h)
        ∧ (used = 0 ∨ (s.group g).state = .retiring → u.mount = s.mount)
        ∧ (0 < used → (s.group g).state ≠ .retiring → u.mount = s.mount.map fun m => { m with
            fullGroups := m.fullGroups ++ [g], closed := if used < 64 then m.closed + 1 else m.closed }))
    ∧ (∀ (s : State) (g : Nat) (ok : Bool), s.PortRuns .mount (.erase g) →
      exec (.mountReeraseComplete ok) s = .next (endUnit (reerased g (if ok = true then none else some .eraseFail) s)))
    ∧ (∀ (s : State) (g : Nat) (failure : Option Origin), s.StoresSound → ∃ u, onTo (g + 1) u (reerased g failure s)
      ∧ u.mount = (s.mount.map fun m => { m with reerased := m.reerased + 1 })
      ∧ (∀ h, h ≠ g → u.group h = s.group h)
      ∧ (failure = none → u = { s with
            mount := u.mount, mm := { s.mm with port := none, flash := u.mm.flash, groups := u.mm.groups } }
          ∧ (∀ l, u.cell l = if l / 64 = g then none else s.cell l)
          ∧ u.group g =
            { state := .free, origin := none, erases := (s.group g).erases + 1, erasing := false, nextFree := 0 })
      ∧ ∀ o, failure = some o → u = { s with
            mount := u.mount
            mm := { s.mm with
              port := none, groups := u.mm.groups
              defects := if s.mm.defects.length < 256 then s.mm.defects ++ [{ group := g, origin := o }]
                else s.mm.defects }
            ntc := { s.ntc with evPending := s.ntc.evPending ||| 16 } }
          ∧ u.group g = { s.group g with state := .retired, origin := some o, erasing := false })
    ∧ (∀ (s : State) (m : Mount), s.AtRest → s.mount = some m → m.phase = .scan → exec .mountEnd s = .next (endUnit s))
    ∧ (∀ (s : State) (m : Mount), s.AtRest → s.mount = some m → m.phase = .resolution → s.csq.apply = none →
      s.StoresSound → (∀ p ∈ s.mm.groups, p.1 < 4096) → (∀ g ∈ m.fullGroups, g < 4096) →
      ∃ u, exec .mountEnd s = .next (endUnit u) ∧
        let all := s.completeCells m
        let commits (n t : Metadata) : Prop := n.kind = .commitNote ∧ n.base = t.base ∧ n.start ≤ t.start
          ∧ t.start < n.start + n.count ∧ n.seq = n.base + BitVec.ofNat 32 n.count
        let contributes (v : Nat) : Prop := ∃ p ∈ m.scanned, ∃ c, s.cell p.1 = some c
          ∧ (p.2 = .complete ∨ p.2 = .torn true)
          ∧ (v = c.metadata.seq.toNat ∨ (c.metadata.kind = .tentative ∧ v = c.metadata.base.toNat + 16
            ∧ ∀ q ∈ all, ¬commits q.2.metadata c.metadata))
        let found (g : Nat) : Group :=
          if g ∈ m.fullGroups then { s.group g with state := .full, nextFree := 64 } else s.group g
        let free (g : Nat) : Prop := g < 4096 ∧ (found g).state = .free
        let first (g : Nat) (p : Nat → Prop) : Prop := p g ∧ ∀ h, p h →
          (found g).erases < (found h).erases ∨ ((found g).erases = (found h).erases ∧ g ≤ h)
        let count (n : Nat) : Word := BitVec.ofNat 32 (min n (2 ^ 32 - 1))
        let raised : BitVec 9 :=
          256 ||| (if u.reserve ≤ 24 then 32 else 0) ||| if u.reserve ≤ 4 then 64 else 0
        let out (f : FaultCode) : Prop :=
          s.ntc.pendingFault f = true ∨ s.ntc.level = 7 + f.index ∨ 7 + f.index ∈ s.ntc.stack
        u.mount = none ∧ u.fc = { s.fc with lines := u.fc.lines, draining := u.fc.draining } ∧ u.pending = s.pending
          ∧ u.mm = { s.mm with
              flash := u.mm.flash, map := u.mm.map, seq := u.mm.seq, groups := u.mm.groups, hostOpen := u.mm.hostOpen
              reclaimOpen := u.mm.reclaimOpen, commitNotes := u.mm.commitNotes, port := u.mm.port
              reclaimFill := decide (u.freeCount < 12) || (s.mm.reclaimFill && decide (u.freeCount < 16))
              victim := none, relocQueue := [], relocCopy := none, readOnly := decide (u.reserve ≤ 4)
              health := { correctedReads := 0, correctedBits := 0, uncorrectableReads := 0, relocationsDone := 0
                          relocationsDropped := 0, mountTorn := count m.torn, mountMetaErrors := count m.metaErrors
                          mountReerased := count m.reerased, mountClosed := count m.closed } }
          ∧ (s.mm.port = none → u.mm.port = none)
          ∧ u.mm.map = resolvedMap all
          ∧ (∀ l, u.cell l = if (l, .metadataError) ∈ m.scanned then
              (s.cell l).map fun c => { c with metaLost := true } else s.cell l)
          ∧ (∀ p, p ∈ all ↔ (p.1, .complete) ∈ m.scanned ∧ s.cell p.1 = some p.2)
          ∧ (∀ r, r ∈ u.mm.commitNotes ↔ ∃ c, (r.loc, c) ∈ all ∧ c.metadata.kind = .commitNote
              ∧ c.metadata.seq = c.metadata.base + BitVec.ofNat 32 c.metadata.count
              ∧ r = { start := c.metadata.start, count := c.metadata.count, base := c.metadata.base, seq := c.metadata.seq
                      loc := r.loc }
              ∧ (∀ q ∈ all, q.2.metadata.kind = .commitNote → q.2.metadata.seq = c.metadata.seq →
                (q.2.metadata.copyMark = false ∧ c.metadata.copyMark = true)
                  ∨ (q.2.metadata.copyMark = c.metadata.copyMark ∧ q.1 ≤ r.loc))
              ∧ ∃ l x, s.cell l = some x ∧ x.complete = true ∧ x.metadata.kind = .tentative ∧ x.metadata.base = r.base
                ∧ u.mm.map.targets l = true)
          ∧ ((∀ v, ¬contributes v) → u.mm.seq = 1)
          ∧ (∀ v, contributes v → (∀ w, contributes w → w ≤ v) → u.mm.seq = BitVec.ofNat 32 (v + 1))
          ∧ (∀ g, u.group g = if u.mm.reclaimOpen = some g ∨ u.mm.hostOpen = some g then
              { found g with state := .opened } else found g)
          ∧ (∀ g, u.mm.reclaimOpen = some g → first g free)
          ∧ (u.mm.reclaimOpen = none → ∀ g, ¬free g)
          ∧ (∀ g, u.mm.hostOpen = some g → first g fun h => free h ∧ u.mm.reclaimOpen ≠ some h)
          ∧ (u.mm.hostOpen = none ↔ ((List.range 4096).filter fun g => (found g).state == .free).length < 3)
          ∧ (m.firstMetaError = none → u = { s with
              mm := u.mm, mount := none, ntc := { s.ntc with evPending := s.ntc.evPending ||| raised } })
          ∧ ∀ loc, m.firstMetaError = some loc →
            (¬out .f3 → ¬out .f4 → u = { s with
              mm := u.mm, mount := none, rvt := u.rvt
              ntc := { s.ntc with
                evPending := s.ntc.evPending ||| raised ||| (if s.rvt.entries = [] then 0 else 4)
                faults := s.ntc.faults ||| 2, f2Detail := BitVec.ofNat 18 loc } } ∧ u.rvt.entries = [])
              ∧ ∀ f, f = .f3 ∨ f = .f4 → out f → (out .f4 → f = .f4) →
                u.rst = { s.rst with cause := .collision, collision := some (f, .f2) } ∧ u.csq = Csq.reset
                  ∧ u.dp = DataPort.reset ∧ u.rvt = { entries := [], lost := none }
                  ∧ u.ntc = { s.ntc with
                      evPending := raised, faults := 0, level := 0, stack := [], quiet := 0, unannounced := 0, timer := none })
    ∧ (∀ s : State, s.AtRest → s.mount = none → exec .mountEnd s = .next (endUnit s))
    ∧ ∀ (all : List (Loc × Cell)) (f : Nat), (all.map fun p => p.1).Nodup → f < 245760 →
      let covers (p : Loc × Cell) : Prop :=
        let d := p.2.metadata
        (d.kind = .data ∧ d.start = f) ∨ (d.kind = .trimNote ∧ d.start ≤ f ∧ f < d.start + d.count)
          ∨ (d.kind = .tentative ∧ d.start = f ∧ ∃ q ∈ all, q.2.metadata.kind = .commitNote
            ∧ q.2.metadata.base = d.base ∧ q.2.metadata.start ≤ d.start
            ∧ d.start < q.2.metadata.start + q.2.metadata.count
            ∧ q.2.metadata.seq = q.2.metadata.base + BitVec.ofNat 32 q.2.metadata.count)
      let below (p q : Loc × Cell) : Prop :=
        p.2.metadata.seq.toNat < q.2.metadata.seq.toNat ∨ (p.2.metadata.seq = q.2.metadata.seq
          ∧ (p.2.metadata.copyMark = false ∧ q.2.metadata.copyMark = true
            ∨ p.2.metadata.copyMark = q.2.metadata.copyMark ∧ p.1 ≤ q.1))
      ((∀ p ∈ all, ¬covers p) →
          (resolvedMap all).entry f = { state := .never, target := none, seq := 0 })
        ∧ ∀ p ∈ all, covers p → (∀ q ∈ all, covers q → below q p) → (resolvedMap all).entry f =
          { state := if p.2.metadata.kind = .trimNote then .trimmed else .mapped, target := some p.1
            seq := p.2.metadata.seq }

/-! ### Power and time -/

/-- SLEEP completes once no line is DIRTY, every other slot is at rest and no ticket is in flight but a voided one whose
program is in progress (read from R173, log 27), and enters the SLEEP state unless a younger slot is QUEUED (R81, R82, R170;
in a freeze its step 4 waits, the model's reading of log 13); DOZE is entered when it is due (R169); the media's readiness
ends WAKING (R171). The entry into SLEEP breaks every reservation with cause SLEEP (R82, R106). A row of this group that is
not due, or whose event cannot occur, changes nothing (the model's choice, log 12). -/
def Obligations.PowerStatesAreEntered : Prop :=
  (∀ (s : State) (a : Apply), s.AtRest → s.csq.apply = some a → a.wait = .forSleep →
    let n := a.slot
    let ready := s.dirtyCount = 0 ∧ s.frozen = false ∧ (∀ m, m ≠ n →
      (s.slot m).state = .free ∨ (s.slot m).state = .done ∨ (m ∈ s.younger n ∧ (s.slot m).state = .queued))
      ∧ ∀ k, s.fc.ticket = some k →
        (s.line k.line).voidTicket = true ∧ ∃ op, s.mm.port = some op ∧ op.req = .wbe
    let skipped := ∃ m ∈ s.younger n, (s.slot m).state = .queued
    (¬ready → exec .sleepCompletion s = .next (endUnit s))
      ∧ (ready → skipped → exec .sleepCompletion s = .next (endUnit (completeSlot n .ok 0 (settleSlots
          (setSlot n { s.slot n with flags := { (s.slot n).flags with sleepSkipped := true } } s)))))
      ∧ (ready → ¬skipped →
          let v := completeSlot n .ok 0 (settleSlots s)
          exec .sleepCompletion s = .next (endUnit { v with
            pwr := { v.pwr with state := .sleep, intent := false, idleTimer := 0 }
            rvt := { entries := [], lost := match s.rvt.entries.getLast? with
              | some last => some { cause := .sleep, token := last.token }
              | none => s.rvt.lost }
            ntc := { v.ntc with
              evPending := v.ntc.evPending ||| (if s.rvt.entries = [] then 0 else 4) ||| 128 } })))
    ∧ (∀ s : State, s.due = some .dozeEntry → exec .dozeEntry s = .next (endUnit { s with
        pwr := { s.pwr with state := .doze, intent := false, mediaOn := false, idleTimer := 0 }
        ntc := { s.ntc with evPending := s.ntc.evPending ||| 128 } }))
    ∧ (∀ s : State, s.due = some .dozeEntry ↔ s.csq.apply = none ∧ s.startable = none ∧ s.pwr.state = .idle
        ∧ s.pwr.intent = true ∧ s.slotWork = false ∧ s.engineWork = false ∧ s.dirtyCount = 0 ∧ s.frozen = false)
    ∧ ∀ s : State, s.AtRest →
      (s.pwr.state = .waking → s.pwr.powerUp.isSome = true → exec .mediaReady s = .next (endUnit { s with
          pwr := { s.pwr with state := .active, powerUp := none, mediaOn := true, idleTimer := 0 }
          ntc := { s.ntc with evPending := s.ntc.evPending ||| 128 } }))
        ∧ ((s.pwr.state ≠ .waking ∨ s.pwr.powerUp = none) → exec .mediaReady s = .next (endUnit s))

/-- A tick does its work in the order of R172: the stall timer, with what it settles (that this is evaluated before the next
piece of work is the model's reading of sections 2.5.1 and 2.7, log 29), the power-up, TB0 and then TB1, the quiet count, the
coalescing timer and the idle timer. A row of a special tick is such a tick where its effect falls in it (the model's
reading, log 14). The tick does not run in RESET_HELD, in a POR or PIN reset (the model's choice, log 4), or in SLEEP with the
media off. A bad word that the check finds ends the holder's command (R53 to R55), and a captured word of its phase is not
consumed (R8, R54). That a tick in SLEEP with the media still on is the whole tick, even where its step 1 ends the last media
operation, is the model's choice (R170 leaves it open, log 40), and so is that the row of a tick that does not run changes
nothing (log 12). -/
def Obligations.TickWorksInOrder : Prop :=
  (∀ (s : State) (b0 b1 : Option Nat), s.AtRest →
    let runs := s.rst.portReset = false ∧ s.rst.inReset = none ∧ ¬(s.pwr.state = .sleep ∧ s.pwr.mediaOn = false)
    let whole : Host.Outcome State Fault Refusal := .next (endUnit (tickIdle (tickCoalesce (tickQuiet
      (tickBuffers none b1 (tickBuffers b0 none (tickPowerUp (settleSlots (tickStall s)))))))))
    let arms := s.pwr.state = .idle ∧ s.pwr.intent = false ∧ 0 < s.pwr.dozeDelay.toNat
      ∧ s.pwr.dozeDelay.toNat * 100 ≤ min 25500 (s.pwr.idleTimer + 1)
    (runs → exec (.tick b0 b1) s = whole)
      ∧ (¬runs → ∀ c ∈ [.tick b0 b1, .stallLimit b0 b1, .powerupStall b0 b1, .quietEnd b0 b1, .coalesceTimeout b0 b1,
          .dozeIntentArm b0 b1], exec c s = .next (endUnit s))
      ∧ (runs → s.ntc.quiet = 1 → exec (.quietEnd b0 b1) s = whole)
      ∧ (∀ k, runs → s.ntc.timer = some k → k.limit ≤ k.elapsed + 1 → exec (.coalesceTimeout b0 b1) s = whole)
      ∧ (runs → arms → exec (.dozeIntentArm b0 b1) s = whole)
      ∧ ∀ k, runs → s.pwr.powerUp = some k → 400 ≤ k → exec (.powerupStall b0 b1) s = whole)
    ∧ ∀ s : State,
      (s.ntc.quiet = 0 → tickQuiet s = s)
        ∧ (s.ntc.quiet ≠ 0 → tickQuiet s = { s with ntc := { s.ntc with quiet := s.ntc.quiet - 1 } })
        ∧ (s.ntc.timer = none → tickCoalesce s = s)
        ∧ (∀ k, s.ntc.timer = some k →
          (k.elapsed + 1 < k.limit →
              tickCoalesce s = { s with ntc := { s.ntc with timer := some { k with elapsed := k.elapsed + 1 } } })
            ∧ (k.limit ≤ k.elapsed + 1 → tickCoalesce s = { s with ntc := { s.ntc with
              evPending := s.ntc.evPending ||| 2, unannounced := 0, timer := none } }))
        ∧ ((s.pwr.state ≠ .idle ∨ s.pwr.intent = true) → tickIdle s = s)
        ∧ (s.pwr.state = .idle → s.pwr.intent = false →
          let v := min 25500 (s.pwr.idleTimer + 1)
          tickIdle s = { s with pwr := { s.pwr with
            idleTimer := v
            intent := decide (0 < s.pwr.dozeDelay.toNat ∧ s.pwr.dozeDelay.toNat * 100 ≤ v) } })
        ∧ (s.pwr.powerUp = none → tickPowerUp s = s)
        ∧ (∀ k, s.pwr.powerUp = some k →
          (k < 400 → tickPowerUp s = { s with pwr := { s.pwr with powerUp := some (k + 1) } })
            ∧ (400 ≤ k → tickPowerUp s = raiseHard .f3 { s with pwr := { s.pwr with powerUp := some 0 } }))
        ∧ (s.mm.port = none → tickStall s = s)
        ∧ tickBuffers none none s = s
        ∧ ∀ (b : BufId) (w : Nat),
          let check : State := match b with
            | .tb0 => tickBuffers (some w) none s
            | .tb1 => tickBuffers none (some w) s
          let dropped : Hpi := { s.hpi with captured := s.hpi.captured.map fun c =>
            if c.effect = .consumeWord then { c with effect := .dropped } else c }
          ((s.buf b).holder = none ∨ (s.buf b).words.length ≤ w → check = s)
            ∧ ∀ n, s.bufOf n = some b → w < (s.buf b).words.length →
              (((s.slot n).state = .loading ∨ (s.slot n).state = .loaded) → check =
                  settleSlots (completeSlot n .bufferError 0
                    (setSlot n { s.slot n with flags := CompFlags.none, detail := 0 } (raiseFault .f4 s))))
                ∧ ((s.slot n).state = .unloading → (s.buf b).consumed ≤ w → s.dp.owner ≠ some n → check =
                  settleSlots (completeSlot n .bufferError ((s.buf b).consumed / 256) (raiseFault .f4 s)))
                ∧ ((s.slot n).state = .unloading → (s.buf b).consumed ≤ w → s.dp.owner = some n → check =
                  settleSlots (completeSlot n .bufferError ((s.buf b).consumed / 256)
                    (raiseFault .f4 { s with hpi := dropped })))
                ∧ ((s.slot n).state = .unloading → w < (s.buf b).consumed → check = s)
                ∧ ((s.slot n).state ∉ [.loading, .loaded, .unloading] → check = s)
end

