-- ==== Sys2Proof/Laws/Sparse.lean ====
section
/-!
SUPPORT. Sparse tables and the map: what is read after a write, and that every operation keeps the canonical form.
-/

namespace Sys2Proof.Machine

/-! ### The canonical form -/

/-- Strictly rising keys, said without recursion. -/
theorem sparseWf_iff {α : Type} (l : List (Nat × α)) : sparseWf l = true ↔ l.Pairwise fun p q => p.1 < q.1 := by
  induction l with
  | nil => simp [sparseWf]
  | cons p rest ih =>
    obtain ⟨j, v⟩ := p
    cases rest with
    | nil => simp [sparseWf]
    | cons q rest =>
      obtain ⟨k, w⟩ := q
      simp only [sparseWf, Bool.and_eq_true, decide_eq_true_eq, ih, List.pairwise_cons, List.mem_cons, forall_eq_or_imp]
      constructor
      · rintro ⟨h, h1, h2⟩
        exact ⟨⟨h, fun a ha => Nat.lt_trans h (h1 a ha)⟩, h1, h2⟩
      · rintro ⟨⟨h, -⟩, h1, h2⟩
        exact ⟨h, h1, h2⟩

theorem sparseWf_filter {α : Type} (p : Nat × α → Bool) {l : List (Nat × α)} (h : sparseWf l = true) :
    sparseWf (l.filter p) = true := by
  rw [sparseWf_iff] at h ⊢
  exact h.filter p

theorem sparseWf_map {α β : Type} (f : α → β) {l : List (Nat × α)} (h : sparseWf l = true) :
    sparseWf (l.map fun p => (p.1, f p.2)) = true := by
  rw [sparseWf_iff] at h ⊢
  exact List.pairwise_map.2 h

theorem sparseDrop_wf {α : Type} (k : Nat) {l : List (Nat × α)} (h : sparseWf l = true) : sparseWf (sparseDrop k l) = true :=
  sparseWf_filter _ h

/-- Every entry of a table after a put is the new one or an old one. -/
theorem mem_sparsePut {α : Type} {k : Nat} {v : α} {l : List (Nat × α)} {p : Nat × α} (h : p ∈ sparsePut k v l) :
    p = (k, v) ∨ p ∈ l := by
  induction l with
  | nil => exact .inl (by simpa [sparsePut] using h)
  | cons q rest ih =>
    obtain ⟨j, w⟩ := q
    simp only [sparsePut] at h
    split at h
    · simpa using h
    · split at h
      · rcases List.mem_cons.1 h with h | h
        · exact .inl h
        · exact .inr (List.mem_cons_of_mem _ h)
      · rcases List.mem_cons.1 h with h | h
        · exact .inr (h ▸ List.mem_cons_self)
        · exact (ih h).imp id (List.mem_cons_of_mem _)

theorem sparsePut_wf {α : Type} (k : Nat) (v : α) {l : List (Nat × α)} (h : sparseWf l = true) :
    sparseWf (sparsePut k v l) = true := by
  rw [sparseWf_iff] at h ⊢
  induction l with
  | nil => simp [sparsePut]
  | cons q rest ih =>
    obtain ⟨j, w⟩ := q
    obtain ⟨h1, h2⟩ := List.pairwise_cons.1 h
    simp only [sparsePut]
    split
    · refine List.pairwise_cons.2 ⟨fun p hp => ?_, h⟩
      rcases List.mem_cons.1 hp with rfl | hp
      · assumption
      · exact Nat.lt_trans ‹k < j› (h1 p hp)
    · split
      · subst k
        exact List.pairwise_cons.2 ⟨h1, h2⟩
      · refine List.pairwise_cons.2 ⟨fun p hp => ?_, ih h2⟩
        rcases mem_sparsePut hp with rfl | hp
        · show j < k
          omega
        · exact h1 p hp

/-! ### Reading -/

theorem sparseGet_eq_none {α : Type} {k : Nat} {l : List (Nat × α)} (h : ∀ p ∈ l, p.1 ≠ k) : sparseGet k l = none := by
  induction l with
  | nil => rfl
  | cons q rest ih =>
    rw [sparseGet, if_neg (h q List.mem_cons_self)]
    exact ih fun p hp => h p (List.mem_cons_of_mem _ hp)

/-- A read finds exactly the listed values. -/
theorem sparseGet_eq_some {α : Type} {k : Nat} {v : α} {l : List (Nat × α)} (h : sparseWf l = true) :
    sparseGet k l = some v ↔ (k, v) ∈ l := by
  rw [sparseWf_iff] at h
  induction l with
  | nil => simp [sparseGet]
  | cons q rest ih =>
    obtain ⟨j, w⟩ := q
    obtain ⟨h1, h2⟩ := List.pairwise_cons.1 h
    simp only [sparseGet, List.mem_cons, Prod.mk.injEq]
    split
    · subst k
      refine ⟨fun e => .inl ⟨rfl, (Option.some.inj e).symm⟩, ?_⟩
      rintro (⟨-, rfl⟩ | hm)
      · rfl
      · exact absurd (h1 _ hm) (Nat.lt_irrefl _)
    · rw [ih h2]
      exact ⟨.inr, fun e => e.resolve_left fun e => ‹¬j = k› e.1.symm⟩

theorem sparseGet_sparsePut_self {α : Type} (k : Nat) (v : α) (l : List (Nat × α)) :
    sparseGet k (sparsePut k v l) = some v := by
  induction l with
  | nil => simp [sparsePut, sparseGet]
  | cons q rest ih =>
    obtain ⟨j, w⟩ := q
    simp only [sparsePut]
    split
    · simp [sparseGet]
    · split
      · simp [sparseGet]
      · simp [sparseGet, show ¬j = k by omega, ih]

theorem sparseGet_sparsePut_ne {α : Type} {k i : Nat} (v : α) (l : List (Nat × α)) (hi : i ≠ k) :
    sparseGet i (sparsePut k v l) = sparseGet i l := by
  induction l with
  | nil => simp [sparsePut, sparseGet, hi.symm]
  | cons q rest ih =>
    obtain ⟨j, w⟩ := q
    simp only [sparsePut]
    split
    · simp [sparseGet, hi.symm]
    · split
      · subst k
        simp [sparseGet, hi.symm]
      · simp [sparseGet, ih]

theorem sparseGet_sparseDrop {α : Type} (k i : Nat) (l : List (Nat × α)) :
    sparseGet i (sparseDrop k l) = if i = k then none else sparseGet i l := by
  induction l with
  | nil => simp [sparseDrop, sparseGet]
  | cons q rest ih =>
    obtain ⟨j, w⟩ := q
    rw [sparseDrop] at ih ⊢
    by_cases hj : j = k
    · subst hj
      simp only [List.filter_cons, bne_self_eq_false, Bool.false_eq_true, if_false, ih, sparseGet]
      split
      · rfl
      · rw [if_neg fun e => ‹¬i = j› e.symm]
    · simp only [List.filter_cons, bne_iff_ne, ne_eq, hj, not_false_eq_true, if_true, sparseGet, ih]
      split
      · subst i
        rw [if_neg hj]
      · rfl

/-! ### The map -/

theorem FolioMap.wf_iff (m : FolioMap) :
    m.wf = true ↔ sparseWf m.items = true ∧ ∀ p ∈ m.items, p.2 ≠ m.unlisted := by
  simp [FolioMap.wf]

/-- A put changes the entry of one folio. -/
theorem FolioMap.entry_put (m : FolioMap) (f g : Nat) (e : MapEntry) :
    (m.put f e).entry g = if g = f then e else m.entry g := by
  unfold FolioMap.put FolioMap.entry
  split
  · rename_i h
    simp only [sparseGet_sparseDrop]
    split
    · exact h.symm
    · rfl
  · split
    · subst g
      simp [sparseGet_sparsePut_self]
    · rename_i h
      simp [sparseGet_sparsePut_ne _ _ h]

theorem FolioMap.put_wf (m : FolioMap) (f : Nat) (e : MapEntry) (h : m.wf = true) : (m.put f e).wf = true := by
  rw [FolioMap.wf_iff] at h ⊢
  unfold FolioMap.put
  split
  · exact ⟨sparseDrop_wf _ h.1, fun p hp => h.2 p (List.mem_of_mem_filter hp)⟩
  · refine ⟨sparsePut_wf _ _ h.1, fun p hp => ?_⟩
    rcases mem_sparsePut hp with rfl | hp
    · assumption
    · exact h.2 p hp

theorem FolioMap.constant_wf (e : MapEntry) : (FolioMap.constant e).wf = true := rfl

theorem FolioMap.moveTarget_wf (m : FolioMap) (src dst : Loc) (h : m.wf = true) : (m.moveTarget src dst).wf = true := by
  rw [FolioMap.wf_iff] at h ⊢
  exact ⟨sparseWf_filter _ (sparseWf_map _ h.1), fun p hp => by simpa [FolioMap.moveTarget] using (List.mem_filter.1 hp).2⟩

/-! ### The stores of the state -/

@[simp] theorem mapEntry_putEntry (f g : Nat) (e : MapEntry) (s : State) :
    (putEntry f e s).mapEntry g = if g = f then e else s.mapEntry g := FolioMap.entry_put _ _ _ _

@[simp] theorem cell_putCell_self (loc : Loc) (p : Prog) (ok : Bool) (s : State) :
    (putCell loc p ok s).cell loc = some { metadata := p.metadata, data := p.data, complete := ok, rotten := p.rotten } :=
  sparseGet_sparsePut_self _ _ _

theorem cell_putCell_ne {loc i : Loc} (p : Prog) (ok : Bool) (s : State) (h : i ≠ loc) :
    (putCell loc p ok s).cell i = s.cell i := sparseGet_sparsePut_ne _ _ h

@[simp] theorem group_putGroup (g h : Nat) (x : Group) (s : State) :
    (putGroup g x s).group h = if h = g then x else s.group h := by
  unfold putGroup State.group
  split
  · rename_i e
    simp only [sparseGet_sparseDrop]
    split
    · simp [e]
    · rfl
  · split
    · subst h
      simp [sparseGet_sparsePut_self]
    · rename_i e
      simp [sparseGet_sparsePut_ne _ _ e]

theorem putCell_flash_wf (loc : Loc) (p : Prog) (ok : Bool) (s : State) (h : sparseWf s.mm.flash = true) :
    sparseWf (putCell loc p ok s).mm.flash = true := sparsePut_wf _ _ h

theorem eraseGroup_flash_wf (g : Nat) (s : State) (h : sparseWf s.mm.flash = true) :
    sparseWf (eraseGroup g s).mm.flash = true := sparseWf_filter _ h

theorem putEntry_map_wf (f : Nat) (e : MapEntry) (s : State) (h : s.mm.map.wf = true) :
    (putEntry f e s).mm.map.wf = true := FolioMap.put_wf _ _ _ h

/-- A put keeps the group table in canonical form. -/
theorem putGroup_groups_wf (g : Nat) (x : Group) (s : State)
    (h : sparseWf s.mm.groups = true ∧ ∀ p ∈ s.mm.groups, p.2 ≠ Group.fresh) :
    sparseWf (putGroup g x s).mm.groups = true ∧ ∀ p ∈ (putGroup g x s).mm.groups, p.2 ≠ Group.fresh := by
  unfold putGroup
  split
  · exact ⟨sparseDrop_wf _ h.1, fun p hp => h.2 p (List.mem_of_mem_filter hp)⟩
  · refine ⟨sparsePut_wf _ _ h.1, fun p hp => ?_⟩
    rcases mem_sparsePut hp with rfl | hp
    · assumption
    · exact h.2 p hp

/-- Unmapping a range keeps the map in canonical form. -/
theorem unmapRange_map_wf (start count : Nat) (e : MapEntry) (s : State) (h : s.mm.map.wf = true) :
    (unmapRange start count e s).mm.map.wf = true := by
  unfold unmapRange
  split
  · rfl
  · generalize List.range count = l
    induction l generalizing s with
    | nil => exact h
    | cons i l ih => exact ih _ (putEntry_map_wf _ _ _ h)

/-- The stores after reset are in canonical form: they list nothing. -/
theorem reset_stores_empty :
    State.reset.mm.flash = [] ∧ State.reset.mm.map = .empty ∧ State.reset.mm.groups = [] := ⟨rfl, rfl, rfl⟩

end Sys2Proof.Machine
end

