-- ==== Sys2Proof/Laws/State.lean ====
section
/-!
SUPPORT. The fields that each update of the state leaves alone, one lemma per field per update, all true by rfl: a proof never
unfolds a record update to see that another field stands.
-/

namespace Sys2Proof.Machine

/-! ### setEvent -/

@[simp] theorem setEvent_hpi (e : Event) (s : State) : (setEvent e s).hpi = s.hpi := rfl
@[simp] theorem setEvent_csq (e : Event) (s : State) : (setEvent e s).csq = s.csq := rfl
@[simp] theorem setEvent_dp (e : Event) (s : State) : (setEvent e s).dp = s.dp := rfl
@[simp] theorem setEvent_fc (e : Event) (s : State) : (setEvent e s).fc = s.fc := rfl
@[simp] theorem setEvent_rvt (e : Event) (s : State) : (setEvent e s).rvt = s.rvt := rfl
@[simp] theorem setEvent_mm (e : Event) (s : State) : (setEvent e s).mm = s.mm := rfl
@[simp] theorem setEvent_mount (e : Event) (s : State) : (setEvent e s).mount = s.mount := rfl
@[simp] theorem setEvent_pwr (e : Event) (s : State) : (setEvent e s).pwr = s.pwr := rfl
@[simp] theorem setEvent_rst (e : Event) (s : State) : (setEvent e s).rst = s.rst := rfl
@[simp] theorem setEvent_pending (e : Event) (s : State) : (setEvent e s).pending = s.pending := rfl

/-! ### setFault -/

@[simp] theorem setFault_hpi (f : FaultCode) (s : State) : (setFault f s).hpi = s.hpi := rfl
@[simp] theorem setFault_csq (f : FaultCode) (s : State) : (setFault f s).csq = s.csq := rfl
@[simp] theorem setFault_dp (f : FaultCode) (s : State) : (setFault f s).dp = s.dp := rfl
@[simp] theorem setFault_fc (f : FaultCode) (s : State) : (setFault f s).fc = s.fc := rfl
@[simp] theorem setFault_rvt (f : FaultCode) (s : State) : (setFault f s).rvt = s.rvt := rfl
@[simp] theorem setFault_mm (f : FaultCode) (s : State) : (setFault f s).mm = s.mm := rfl
@[simp] theorem setFault_mount (f : FaultCode) (s : State) : (setFault f s).mount = s.mount := rfl
@[simp] theorem setFault_pwr (f : FaultCode) (s : State) : (setFault f s).pwr = s.pwr := rfl
@[simp] theorem setFault_rst (f : FaultCode) (s : State) : (setFault f s).rst = s.rst := rfl
@[simp] theorem setFault_pending (f : FaultCode) (s : State) : (setFault f s).pending = s.pending := rfl

/-! ### announce -/

@[simp] theorem announce_hpi (s : State) : (announce s).hpi = s.hpi := rfl
@[simp] theorem announce_csq (s : State) : (announce s).csq = s.csq := rfl
@[simp] theorem announce_dp (s : State) : (announce s).dp = s.dp := rfl
@[simp] theorem announce_fc (s : State) : (announce s).fc = s.fc := rfl
@[simp] theorem announce_rvt (s : State) : (announce s).rvt = s.rvt := rfl
@[simp] theorem announce_mm (s : State) : (announce s).mm = s.mm := rfl
@[simp] theorem announce_mount (s : State) : (announce s).mount = s.mount := rfl
@[simp] theorem announce_pwr (s : State) : (announce s).pwr = s.pwr := rfl
@[simp] theorem announce_rst (s : State) : (announce s).rst = s.rst := rfl
@[simp] theorem announce_pending (s : State) : (announce s).pending = s.pending := rfl

/-! ### setSlot -/

@[simp] theorem setSlot_hpi (n : Fin 8) (x : Slot) (s : State) : (setSlot n x s).hpi = s.hpi := rfl
@[simp] theorem setSlot_dp (n : Fin 8) (x : Slot) (s : State) : (setSlot n x s).dp = s.dp := rfl
@[simp] theorem setSlot_fc (n : Fin 8) (x : Slot) (s : State) : (setSlot n x s).fc = s.fc := rfl
@[simp] theorem setSlot_rvt (n : Fin 8) (x : Slot) (s : State) : (setSlot n x s).rvt = s.rvt := rfl
@[simp] theorem setSlot_mm (n : Fin 8) (x : Slot) (s : State) : (setSlot n x s).mm = s.mm := rfl
@[simp] theorem setSlot_mount (n : Fin 8) (x : Slot) (s : State) : (setSlot n x s).mount = s.mount := rfl
@[simp] theorem setSlot_ntc (n : Fin 8) (x : Slot) (s : State) : (setSlot n x s).ntc = s.ntc := rfl
@[simp] theorem setSlot_pwr (n : Fin 8) (x : Slot) (s : State) : (setSlot n x s).pwr = s.pwr := rfl
@[simp] theorem setSlot_rst (n : Fin 8) (x : Slot) (s : State) : (setSlot n x s).rst = s.rst := rfl
@[simp] theorem setSlot_pending (n : Fin 8) (x : Slot) (s : State) : (setSlot n x s).pending = s.pending := rfl

/-! ### modSlot -/

@[simp] theorem modSlot_hpi (n : Fin 8) (f : Slot → Slot) (s : State) : (modSlot n f s).hpi = s.hpi := rfl
@[simp] theorem modSlot_dp (n : Fin 8) (f : Slot → Slot) (s : State) : (modSlot n f s).dp = s.dp := rfl
@[simp] theorem modSlot_fc (n : Fin 8) (f : Slot → Slot) (s : State) : (modSlot n f s).fc = s.fc := rfl
@[simp] theorem modSlot_rvt (n : Fin 8) (f : Slot → Slot) (s : State) : (modSlot n f s).rvt = s.rvt := rfl
@[simp] theorem modSlot_mm (n : Fin 8) (f : Slot → Slot) (s : State) : (modSlot n f s).mm = s.mm := rfl
@[simp] theorem modSlot_mount (n : Fin 8) (f : Slot → Slot) (s : State) : (modSlot n f s).mount = s.mount := rfl
@[simp] theorem modSlot_ntc (n : Fin 8) (f : Slot → Slot) (s : State) : (modSlot n f s).ntc = s.ntc := rfl
@[simp] theorem modSlot_pwr (n : Fin 8) (f : Slot → Slot) (s : State) : (modSlot n f s).pwr = s.pwr := rfl
@[simp] theorem modSlot_rst (n : Fin 8) (f : Slot → Slot) (s : State) : (modSlot n f s).rst = s.rst := rfl
@[simp] theorem modSlot_pending (n : Fin 8) (f : Slot → Slot) (s : State) : (modSlot n f s).pending = s.pending := rfl

/-! ### mapSlots -/

@[simp] theorem mapSlots_hpi (f : Slot → Slot) (s : State) : (mapSlots f s).hpi = s.hpi := rfl
@[simp] theorem mapSlots_dp (f : Slot → Slot) (s : State) : (mapSlots f s).dp = s.dp := rfl
@[simp] theorem mapSlots_fc (f : Slot → Slot) (s : State) : (mapSlots f s).fc = s.fc := rfl
@[simp] theorem mapSlots_rvt (f : Slot → Slot) (s : State) : (mapSlots f s).rvt = s.rvt := rfl
@[simp] theorem mapSlots_mm (f : Slot → Slot) (s : State) : (mapSlots f s).mm = s.mm := rfl
@[simp] theorem mapSlots_mount (f : Slot → Slot) (s : State) : (mapSlots f s).mount = s.mount := rfl
@[simp] theorem mapSlots_ntc (f : Slot → Slot) (s : State) : (mapSlots f s).ntc = s.ntc := rfl
@[simp] theorem mapSlots_pwr (f : Slot → Slot) (s : State) : (mapSlots f s).pwr = s.pwr := rfl
@[simp] theorem mapSlots_rst (f : Slot → Slot) (s : State) : (mapSlots f s).rst = s.rst := rfl
@[simp] theorem mapSlots_pending (f : Slot → Slot) (s : State) : (mapSlots f s).pending = s.pending := rfl

/-! ### modFlags -/

@[simp] theorem modFlags_hpi (n : Fin 8) (f : CompFlags → CompFlags) (s : State) : (modFlags n f s).hpi = s.hpi := rfl
@[simp] theorem modFlags_dp (n : Fin 8) (f : CompFlags → CompFlags) (s : State) : (modFlags n f s).dp = s.dp := rfl
@[simp] theorem modFlags_fc (n : Fin 8) (f : CompFlags → CompFlags) (s : State) : (modFlags n f s).fc = s.fc := rfl
@[simp] theorem modFlags_rvt (n : Fin 8) (f : CompFlags → CompFlags) (s : State) : (modFlags n f s).rvt = s.rvt := rfl
@[simp] theorem modFlags_mm (n : Fin 8) (f : CompFlags → CompFlags) (s : State) : (modFlags n f s).mm = s.mm := rfl
@[simp] theorem modFlags_mount (n : Fin 8) (f : CompFlags → CompFlags) (s : State) : (modFlags n f s).mount = s.mount := rfl
@[simp] theorem modFlags_ntc (n : Fin 8) (f : CompFlags → CompFlags) (s : State) : (modFlags n f s).ntc = s.ntc := rfl
@[simp] theorem modFlags_pwr (n : Fin 8) (f : CompFlags → CompFlags) (s : State) : (modFlags n f s).pwr = s.pwr := rfl
@[simp] theorem modFlags_rst (n : Fin 8) (f : CompFlags → CompFlags) (s : State) : (modFlags n f s).rst = s.rst := rfl
@[simp] theorem modFlags_pending (n : Fin 8) (f : CompFlags → CompFlags) (s : State) : (modFlags n f s).pending = s.pending := rfl

/-! ### setApply -/

@[simp] theorem setApply_hpi (a : Option Apply) (s : State) : (setApply a s).hpi = s.hpi := rfl
@[simp] theorem setApply_dp (a : Option Apply) (s : State) : (setApply a s).dp = s.dp := rfl
@[simp] theorem setApply_fc (a : Option Apply) (s : State) : (setApply a s).fc = s.fc := rfl
@[simp] theorem setApply_rvt (a : Option Apply) (s : State) : (setApply a s).rvt = s.rvt := rfl
@[simp] theorem setApply_mm (a : Option Apply) (s : State) : (setApply a s).mm = s.mm := rfl
@[simp] theorem setApply_mount (a : Option Apply) (s : State) : (setApply a s).mount = s.mount := rfl
@[simp] theorem setApply_ntc (a : Option Apply) (s : State) : (setApply a s).ntc = s.ntc := rfl
@[simp] theorem setApply_pwr (a : Option Apply) (s : State) : (setApply a s).pwr = s.pwr := rfl
@[simp] theorem setApply_rst (a : Option Apply) (s : State) : (setApply a s).rst = s.rst := rfl
@[simp] theorem setApply_pending (a : Option Apply) (s : State) : (setApply a s).pending = s.pending := rfl

/-! ### consumeRsv -/

@[simp] theorem consumeRsv_hpi (k : Byte) (a b : Nat) (s : State) : (consumeRsv k a b s).hpi = s.hpi := rfl
@[simp] theorem consumeRsv_csq (k : Byte) (a b : Nat) (s : State) : (consumeRsv k a b s).csq = s.csq := rfl
@[simp] theorem consumeRsv_dp (k : Byte) (a b : Nat) (s : State) : (consumeRsv k a b s).dp = s.dp := rfl
@[simp] theorem consumeRsv_fc (k : Byte) (a b : Nat) (s : State) : (consumeRsv k a b s).fc = s.fc := rfl
@[simp] theorem consumeRsv_mm (k : Byte) (a b : Nat) (s : State) : (consumeRsv k a b s).mm = s.mm := rfl
@[simp] theorem consumeRsv_mount (k : Byte) (a b : Nat) (s : State) : (consumeRsv k a b s).mount = s.mount := rfl
@[simp] theorem consumeRsv_ntc (k : Byte) (a b : Nat) (s : State) : (consumeRsv k a b s).ntc = s.ntc := rfl
@[simp] theorem consumeRsv_pwr (k : Byte) (a b : Nat) (s : State) : (consumeRsv k a b s).pwr = s.pwr := rfl
@[simp] theorem consumeRsv_rst (k : Byte) (a b : Nat) (s : State) : (consumeRsv k a b s).rst = s.rst := rfl
@[simp] theorem consumeRsv_pending (k : Byte) (a b : Nat) (s : State) : (consumeRsv k a b s).pending = s.pending := rfl

/-! ### putEntry -/

@[simp] theorem putEntry_hpi (f : Nat) (e : MapEntry) (s : State) : (putEntry f e s).hpi = s.hpi := rfl
@[simp] theorem putEntry_csq (f : Nat) (e : MapEntry) (s : State) : (putEntry f e s).csq = s.csq := rfl
@[simp] theorem putEntry_dp (f : Nat) (e : MapEntry) (s : State) : (putEntry f e s).dp = s.dp := rfl
@[simp] theorem putEntry_fc (f : Nat) (e : MapEntry) (s : State) : (putEntry f e s).fc = s.fc := rfl
@[simp] theorem putEntry_rvt (f : Nat) (e : MapEntry) (s : State) : (putEntry f e s).rvt = s.rvt := rfl
@[simp] theorem putEntry_mount (f : Nat) (e : MapEntry) (s : State) : (putEntry f e s).mount = s.mount := rfl
@[simp] theorem putEntry_ntc (f : Nat) (e : MapEntry) (s : State) : (putEntry f e s).ntc = s.ntc := rfl
@[simp] theorem putEntry_pwr (f : Nat) (e : MapEntry) (s : State) : (putEntry f e s).pwr = s.pwr := rfl
@[simp] theorem putEntry_rst (f : Nat) (e : MapEntry) (s : State) : (putEntry f e s).rst = s.rst := rfl
@[simp] theorem putEntry_pending (f : Nat) (e : MapEntry) (s : State) : (putEntry f e s).pending = s.pending := rfl

/-! ### putGroup -/

@[simp] theorem putGroup_hpi (g : Nat) (x : Group) (s : State) : (putGroup g x s).hpi = s.hpi := rfl
@[simp] theorem putGroup_csq (g : Nat) (x : Group) (s : State) : (putGroup g x s).csq = s.csq := rfl
@[simp] theorem putGroup_dp (g : Nat) (x : Group) (s : State) : (putGroup g x s).dp = s.dp := rfl
@[simp] theorem putGroup_fc (g : Nat) (x : Group) (s : State) : (putGroup g x s).fc = s.fc := rfl
@[simp] theorem putGroup_rvt (g : Nat) (x : Group) (s : State) : (putGroup g x s).rvt = s.rvt := rfl
@[simp] theorem putGroup_mount (g : Nat) (x : Group) (s : State) : (putGroup g x s).mount = s.mount := rfl
@[simp] theorem putGroup_ntc (g : Nat) (x : Group) (s : State) : (putGroup g x s).ntc = s.ntc := rfl
@[simp] theorem putGroup_pwr (g : Nat) (x : Group) (s : State) : (putGroup g x s).pwr = s.pwr := rfl
@[simp] theorem putGroup_rst (g : Nat) (x : Group) (s : State) : (putGroup g x s).rst = s.rst := rfl
@[simp] theorem putGroup_pending (g : Nat) (x : Group) (s : State) : (putGroup g x s).pending = s.pending := rfl

/-! ### openGroup -/

@[simp] theorem openGroup_hpi (g : Nat) (s : State) : (openGroup g s).hpi = s.hpi := rfl
@[simp] theorem openGroup_csq (g : Nat) (s : State) : (openGroup g s).csq = s.csq := rfl
@[simp] theorem openGroup_dp (g : Nat) (s : State) : (openGroup g s).dp = s.dp := rfl
@[simp] theorem openGroup_fc (g : Nat) (s : State) : (openGroup g s).fc = s.fc := rfl
@[simp] theorem openGroup_rvt (g : Nat) (s : State) : (openGroup g s).rvt = s.rvt := rfl
@[simp] theorem openGroup_mount (g : Nat) (s : State) : (openGroup g s).mount = s.mount := rfl
@[simp] theorem openGroup_ntc (g : Nat) (s : State) : (openGroup g s).ntc = s.ntc := rfl
@[simp] theorem openGroup_pwr (g : Nat) (s : State) : (openGroup g s).pwr = s.pwr := rfl
@[simp] theorem openGroup_rst (g : Nat) (s : State) : (openGroup g s).rst = s.rst := rfl
@[simp] theorem openGroup_pending (g : Nat) (s : State) : (openGroup g s).pending = s.pending := rfl

/-! ### vacateRole -/

@[simp] theorem vacateRole_hpi (g : Nat) (s : State) : (vacateRole g s).hpi = s.hpi := rfl
@[simp] theorem vacateRole_csq (g : Nat) (s : State) : (vacateRole g s).csq = s.csq := rfl
@[simp] theorem vacateRole_dp (g : Nat) (s : State) : (vacateRole g s).dp = s.dp := rfl
@[simp] theorem vacateRole_fc (g : Nat) (s : State) : (vacateRole g s).fc = s.fc := rfl
@[simp] theorem vacateRole_rvt (g : Nat) (s : State) : (vacateRole g s).rvt = s.rvt := rfl
@[simp] theorem vacateRole_mount (g : Nat) (s : State) : (vacateRole g s).mount = s.mount := rfl
@[simp] theorem vacateRole_ntc (g : Nat) (s : State) : (vacateRole g s).ntc = s.ntc := rfl
@[simp] theorem vacateRole_pwr (g : Nat) (s : State) : (vacateRole g s).pwr = s.pwr := rfl
@[simp] theorem vacateRole_rst (g : Nat) (s : State) : (vacateRole g s).rst = s.rst := rfl
@[simp] theorem vacateRole_pending (g : Nat) (s : State) : (vacateRole g s).pending = s.pending := rfl

/-! ### putCell -/

@[simp] theorem putCell_hpi (l : Loc) (p : Prog) (c : Bool) (s : State) : (putCell l p c s).hpi = s.hpi := rfl
@[simp] theorem putCell_csq (l : Loc) (p : Prog) (c : Bool) (s : State) : (putCell l p c s).csq = s.csq := rfl
@[simp] theorem putCell_dp (l : Loc) (p : Prog) (c : Bool) (s : State) : (putCell l p c s).dp = s.dp := rfl
@[simp] theorem putCell_fc (l : Loc) (p : Prog) (c : Bool) (s : State) : (putCell l p c s).fc = s.fc := rfl
@[simp] theorem putCell_rvt (l : Loc) (p : Prog) (c : Bool) (s : State) : (putCell l p c s).rvt = s.rvt := rfl
@[simp] theorem putCell_mount (l : Loc) (p : Prog) (c : Bool) (s : State) : (putCell l p c s).mount = s.mount := rfl
@[simp] theorem putCell_ntc (l : Loc) (p : Prog) (c : Bool) (s : State) : (putCell l p c s).ntc = s.ntc := rfl
@[simp] theorem putCell_pwr (l : Loc) (p : Prog) (c : Bool) (s : State) : (putCell l p c s).pwr = s.pwr := rfl
@[simp] theorem putCell_rst (l : Loc) (p : Prog) (c : Bool) (s : State) : (putCell l p c s).rst = s.rst := rfl
@[simp] theorem putCell_pending (l : Loc) (p : Prog) (c : Bool) (s : State) : (putCell l p c s).pending = s.pending := rfl

/-! ### clearPort -/

@[simp] theorem clearPort_hpi (s : State) : (clearPort s).hpi = s.hpi := rfl
@[simp] theorem clearPort_csq (s : State) : (clearPort s).csq = s.csq := rfl
@[simp] theorem clearPort_dp (s : State) : (clearPort s).dp = s.dp := rfl
@[simp] theorem clearPort_fc (s : State) : (clearPort s).fc = s.fc := rfl
@[simp] theorem clearPort_rvt (s : State) : (clearPort s).rvt = s.rvt := rfl
@[simp] theorem clearPort_mount (s : State) : (clearPort s).mount = s.mount := rfl
@[simp] theorem clearPort_ntc (s : State) : (clearPort s).ntc = s.ntc := rfl
@[simp] theorem clearPort_pwr (s : State) : (clearPort s).pwr = s.pwr := rfl
@[simp] theorem clearPort_rst (s : State) : (clearPort s).rst = s.rst := rfl
@[simp] theorem clearPort_pending (s : State) : (clearPort s).pending = s.pending := rfl

/-! ### takeSeq -/

@[simp] theorem takeSeq_hpi (n : Nat) (s : State) : (takeSeq n s).hpi = s.hpi := rfl
@[simp] theorem takeSeq_csq (n : Nat) (s : State) : (takeSeq n s).csq = s.csq := rfl
@[simp] theorem takeSeq_dp (n : Nat) (s : State) : (takeSeq n s).dp = s.dp := rfl
@[simp] theorem takeSeq_fc (n : Nat) (s : State) : (takeSeq n s).fc = s.fc := rfl
@[simp] theorem takeSeq_rvt (n : Nat) (s : State) : (takeSeq n s).rvt = s.rvt := rfl
@[simp] theorem takeSeq_mount (n : Nat) (s : State) : (takeSeq n s).mount = s.mount := rfl
@[simp] theorem takeSeq_ntc (n : Nat) (s : State) : (takeSeq n s).ntc = s.ntc := rfl
@[simp] theorem takeSeq_pwr (n : Nat) (s : State) : (takeSeq n s).pwr = s.pwr := rfl
@[simp] theorem takeSeq_rst (n : Nat) (s : State) : (takeSeq n s).rst = s.rst := rfl
@[simp] theorem takeSeq_pending (n : Nat) (s : State) : (takeSeq n s).pending = s.pending := rfl

/-! ### modHealth -/

@[simp] theorem modHealth_hpi (f : Health → Health) (s : State) : (modHealth f s).hpi = s.hpi := rfl
@[simp] theorem modHealth_csq (f : Health → Health) (s : State) : (modHealth f s).csq = s.csq := rfl
@[simp] theorem modHealth_dp (f : Health → Health) (s : State) : (modHealth f s).dp = s.dp := rfl
@[simp] theorem modHealth_fc (f : Health → Health) (s : State) : (modHealth f s).fc = s.fc := rfl
@[simp] theorem modHealth_rvt (f : Health → Health) (s : State) : (modHealth f s).rvt = s.rvt := rfl
@[simp] theorem modHealth_mount (f : Health → Health) (s : State) : (modHealth f s).mount = s.mount := rfl
@[simp] theorem modHealth_ntc (f : Health → Health) (s : State) : (modHealth f s).ntc = s.ntc := rfl
@[simp] theorem modHealth_pwr (f : Health → Health) (s : State) : (modHealth f s).pwr = s.pwr := rfl
@[simp] theorem modHealth_rst (f : Health → Health) (s : State) : (modHealth f s).rst = s.rst := rfl
@[simp] theorem modHealth_pending (f : Health → Health) (s : State) : (modHealth f s).pending = s.pending := rfl

/-! ### pruneNotes -/

@[simp] theorem pruneNotes_hpi (s : State) : (pruneNotes s).hpi = s.hpi := rfl
@[simp] theorem pruneNotes_csq (s : State) : (pruneNotes s).csq = s.csq := rfl
@[simp] theorem pruneNotes_dp (s : State) : (pruneNotes s).dp = s.dp := rfl
@[simp] theorem pruneNotes_fc (s : State) : (pruneNotes s).fc = s.fc := rfl
@[simp] theorem pruneNotes_rvt (s : State) : (pruneNotes s).rvt = s.rvt := rfl
@[simp] theorem pruneNotes_mount (s : State) : (pruneNotes s).mount = s.mount := rfl
@[simp] theorem pruneNotes_ntc (s : State) : (pruneNotes s).ntc = s.ntc := rfl
@[simp] theorem pruneNotes_pwr (s : State) : (pruneNotes s).pwr = s.pwr := rfl
@[simp] theorem pruneNotes_rst (s : State) : (pruneNotes s).rst = s.rst := rfl
@[simp] theorem pruneNotes_pending (s : State) : (pruneNotes s).pending = s.pending := rfl

/-! ### evalReclaim -/

@[simp] theorem evalReclaim_hpi (s : State) : (evalReclaim s).hpi = s.hpi := rfl
@[simp] theorem evalReclaim_csq (s : State) : (evalReclaim s).csq = s.csq := rfl
@[simp] theorem evalReclaim_dp (s : State) : (evalReclaim s).dp = s.dp := rfl
@[simp] theorem evalReclaim_fc (s : State) : (evalReclaim s).fc = s.fc := rfl
@[simp] theorem evalReclaim_rvt (s : State) : (evalReclaim s).rvt = s.rvt := rfl
@[simp] theorem evalReclaim_mount (s : State) : (evalReclaim s).mount = s.mount := rfl
@[simp] theorem evalReclaim_ntc (s : State) : (evalReclaim s).ntc = s.ntc := rfl
@[simp] theorem evalReclaim_pwr (s : State) : (evalReclaim s).pwr = s.pwr := rfl
@[simp] theorem evalReclaim_rst (s : State) : (evalReclaim s).rst = s.rst := rfl
@[simp] theorem evalReclaim_pending (s : State) : (evalReclaim s).pending = s.pending := rfl

/-! ### endVictim -/

@[simp] theorem endVictim_hpi (g : Nat) (s : State) : (endVictim g s).hpi = s.hpi := rfl
@[simp] theorem endVictim_csq (g : Nat) (s : State) : (endVictim g s).csq = s.csq := rfl
@[simp] theorem endVictim_dp (g : Nat) (s : State) : (endVictim g s).dp = s.dp := rfl
@[simp] theorem endVictim_fc (g : Nat) (s : State) : (endVictim g s).fc = s.fc := rfl
@[simp] theorem endVictim_rvt (g : Nat) (s : State) : (endVictim g s).rvt = s.rvt := rfl
@[simp] theorem endVictim_mount (g : Nat) (s : State) : (endVictim g s).mount = s.mount := rfl
@[simp] theorem endVictim_ntc (g : Nat) (s : State) : (endVictim g s).ntc = s.ntc := rfl
@[simp] theorem endVictim_pwr (g : Nat) (s : State) : (endVictim g s).pwr = s.pwr := rfl
@[simp] theorem endVictim_rst (g : Nat) (s : State) : (endVictim g s).rst = s.rst := rfl
@[simp] theorem endVictim_pending (g : Nat) (s : State) : (endVictim g s).pending = s.pending := rfl

/-! ### eraseGroup -/

@[simp] theorem eraseGroup_hpi (g : Nat) (s : State) : (eraseGroup g s).hpi = s.hpi := rfl
@[simp] theorem eraseGroup_csq (g : Nat) (s : State) : (eraseGroup g s).csq = s.csq := rfl
@[simp] theorem eraseGroup_dp (g : Nat) (s : State) : (eraseGroup g s).dp = s.dp := rfl
@[simp] theorem eraseGroup_fc (g : Nat) (s : State) : (eraseGroup g s).fc = s.fc := rfl
@[simp] theorem eraseGroup_rvt (g : Nat) (s : State) : (eraseGroup g s).rvt = s.rvt := rfl
@[simp] theorem eraseGroup_mount (g : Nat) (s : State) : (eraseGroup g s).mount = s.mount := rfl
@[simp] theorem eraseGroup_ntc (g : Nat) (s : State) : (eraseGroup g s).ntc = s.ntc := rfl
@[simp] theorem eraseGroup_pwr (g : Nat) (s : State) : (eraseGroup g s).pwr = s.pwr := rfl
@[simp] theorem eraseGroup_rst (g : Nat) (s : State) : (eraseGroup g s).rst = s.rst := rfl
@[simp] theorem eraseGroup_pending (g : Nat) (s : State) : (eraseGroup g s).pending = s.pending := rfl

/-! ### landCopy -/

@[simp] theorem landCopy_hpi (a b : Loc) (s : State) : (landCopy a b s).hpi = s.hpi := rfl
@[simp] theorem landCopy_csq (a b : Loc) (s : State) : (landCopy a b s).csq = s.csq := rfl
@[simp] theorem landCopy_dp (a b : Loc) (s : State) : (landCopy a b s).dp = s.dp := rfl
@[simp] theorem landCopy_fc (a b : Loc) (s : State) : (landCopy a b s).fc = s.fc := rfl
@[simp] theorem landCopy_rvt (a b : Loc) (s : State) : (landCopy a b s).rvt = s.rvt := rfl
@[simp] theorem landCopy_mount (a b : Loc) (s : State) : (landCopy a b s).mount = s.mount := rfl
@[simp] theorem landCopy_ntc (a b : Loc) (s : State) : (landCopy a b s).ntc = s.ntc := rfl
@[simp] theorem landCopy_pwr (a b : Loc) (s : State) : (landCopy a b s).pwr = s.pwr := rfl
@[simp] theorem landCopy_rst (a b : Loc) (s : State) : (landCopy a b s).rst = s.rst := rfl
@[simp] theorem landCopy_pending (a b : Loc) (s : State) : (landCopy a b s).pending = s.pending := rfl

/-! ### mountOp -/

@[simp] theorem mountOp_hpi (op : MediaOp) (s : State) : (mountOp op s).hpi = s.hpi := rfl
@[simp] theorem mountOp_csq (op : MediaOp) (s : State) : (mountOp op s).csq = s.csq := rfl
@[simp] theorem mountOp_dp (op : MediaOp) (s : State) : (mountOp op s).dp = s.dp := rfl
@[simp] theorem mountOp_fc (op : MediaOp) (s : State) : (mountOp op s).fc = s.fc := rfl
@[simp] theorem mountOp_rvt (op : MediaOp) (s : State) : (mountOp op s).rvt = s.rvt := rfl
@[simp] theorem mountOp_mount (op : MediaOp) (s : State) : (mountOp op s).mount = s.mount := rfl
@[simp] theorem mountOp_ntc (op : MediaOp) (s : State) : (mountOp op s).ntc = s.ntc := rfl
@[simp] theorem mountOp_pwr (op : MediaOp) (s : State) : (mountOp op s).pwr = s.pwr := rfl
@[simp] theorem mountOp_rst (op : MediaOp) (s : State) : (mountOp op s).rst = s.rst := rfl
@[simp] theorem mountOp_pending (op : MediaOp) (s : State) : (mountOp op s).pending = s.pending := rfl

/-! ### grant -/

@[simp] theorem grant_hpi (q : Requester) (op : MediaOp) (s : State) : (grant q op s).hpi = s.hpi := rfl
@[simp] theorem grant_csq (q : Requester) (op : MediaOp) (s : State) : (grant q op s).csq = s.csq := rfl
@[simp] theorem grant_dp (q : Requester) (op : MediaOp) (s : State) : (grant q op s).dp = s.dp := rfl
@[simp] theorem grant_fc (q : Requester) (op : MediaOp) (s : State) : (grant q op s).fc = s.fc := rfl
@[simp] theorem grant_rvt (q : Requester) (op : MediaOp) (s : State) : (grant q op s).rvt = s.rvt := rfl
@[simp] theorem grant_mount (q : Requester) (op : MediaOp) (s : State) : (grant q op s).mount = s.mount := rfl
@[simp] theorem grant_ntc (q : Requester) (op : MediaOp) (s : State) : (grant q op s).ntc = s.ntc := rfl
@[simp] theorem grant_pwr (q : Requester) (op : MediaOp) (s : State) : (grant q op s).pwr = s.pwr := rfl
@[simp] theorem grant_rst (q : Requester) (op : MediaOp) (s : State) : (grant q op s).rst = s.rst := rfl
@[simp] theorem grant_pending (q : Requester) (op : MediaOp) (s : State) : (grant q op s).pending = s.pending := rfl

/-! ### grantProgram -/

@[simp] theorem grantProgram_hpi (q : Requester) (g : Nat) (p : Prog) (s : State) : (grantProgram q g p s).hpi = s.hpi := rfl
@[simp] theorem grantProgram_csq (q : Requester) (g : Nat) (p : Prog) (s : State) : (grantProgram q g p s).csq = s.csq := rfl
@[simp] theorem grantProgram_dp (q : Requester) (g : Nat) (p : Prog) (s : State) : (grantProgram q g p s).dp = s.dp := rfl
@[simp] theorem grantProgram_fc (q : Requester) (g : Nat) (p : Prog) (s : State) : (grantProgram q g p s).fc = s.fc := rfl
@[simp] theorem grantProgram_rvt (q : Requester) (g : Nat) (p : Prog) (s : State) : (grantProgram q g p s).rvt = s.rvt := rfl
@[simp] theorem grantProgram_mount (q : Requester) (g : Nat) (p : Prog) (s : State) : (grantProgram q g p s).mount = s.mount := rfl
@[simp] theorem grantProgram_ntc (q : Requester) (g : Nat) (p : Prog) (s : State) : (grantProgram q g p s).ntc = s.ntc := rfl
@[simp] theorem grantProgram_pwr (q : Requester) (g : Nat) (p : Prog) (s : State) : (grantProgram q g p s).pwr = s.pwr := rfl
@[simp] theorem grantProgram_rst (q : Requester) (g : Nat) (p : Prog) (s : State) : (grantProgram q g p s).rst = s.rst := rfl
@[simp] theorem grantProgram_pending (q : Requester) (g : Nat) (p : Prog) (s : State) : (grantProgram q g p s).pending = s.pending := rfl

/-! ### grantErase -/

@[simp] theorem grantErase_hpi (q : Requester) (g : Nat) (s : State) : (grantErase q g s).hpi = s.hpi := rfl
@[simp] theorem grantErase_csq (q : Requester) (g : Nat) (s : State) : (grantErase q g s).csq = s.csq := rfl
@[simp] theorem grantErase_dp (q : Requester) (g : Nat) (s : State) : (grantErase q g s).dp = s.dp := rfl
@[simp] theorem grantErase_fc (q : Requester) (g : Nat) (s : State) : (grantErase q g s).fc = s.fc := rfl
@[simp] theorem grantErase_rvt (q : Requester) (g : Nat) (s : State) : (grantErase q g s).rvt = s.rvt := rfl
@[simp] theorem grantErase_mount (q : Requester) (g : Nat) (s : State) : (grantErase q g s).mount = s.mount := rfl
@[simp] theorem grantErase_ntc (q : Requester) (g : Nat) (s : State) : (grantErase q g s).ntc = s.ntc := rfl
@[simp] theorem grantErase_pwr (q : Requester) (g : Nat) (s : State) : (grantErase q g s).pwr = s.pwr := rfl
@[simp] theorem grantErase_rst (q : Requester) (g : Nat) (s : State) : (grantErase q g s).rst = s.rst := rfl
@[simp] theorem grantErase_pending (q : Requester) (g : Nat) (s : State) : (grantErase q g s).pending = s.pending := rfl

/-! ### mountCounts -/

@[simp] theorem mountCounts_hpi (m : Mount) (s : State) : (mountCounts m s).hpi = s.hpi := rfl
@[simp] theorem mountCounts_csq (m : Mount) (s : State) : (mountCounts m s).csq = s.csq := rfl
@[simp] theorem mountCounts_dp (m : Mount) (s : State) : (mountCounts m s).dp = s.dp := rfl
@[simp] theorem mountCounts_fc (m : Mount) (s : State) : (mountCounts m s).fc = s.fc := rfl
@[simp] theorem mountCounts_rvt (m : Mount) (s : State) : (mountCounts m s).rvt = s.rvt := rfl
@[simp] theorem mountCounts_mount (m : Mount) (s : State) : (mountCounts m s).mount = s.mount := rfl
@[simp] theorem mountCounts_ntc (m : Mount) (s : State) : (mountCounts m s).ntc = s.ntc := rfl
@[simp] theorem mountCounts_pwr (m : Mount) (s : State) : (mountCounts m s).pwr = s.pwr := rfl
@[simp] theorem mountCounts_rst (m : Mount) (s : State) : (mountCounts m s).rst = s.rst := rfl
@[simp] theorem mountCounts_pending (m : Mount) (s : State) : (mountCounts m s).pending = s.pending := rfl

/-! ### setLine -/

@[simp] theorem setLine_hpi (l : Fin 32) (x : Line) (s : State) : (setLine l x s).hpi = s.hpi := rfl
@[simp] theorem setLine_csq (l : Fin 32) (x : Line) (s : State) : (setLine l x s).csq = s.csq := rfl
@[simp] theorem setLine_dp (l : Fin 32) (x : Line) (s : State) : (setLine l x s).dp = s.dp := rfl
@[simp] theorem setLine_rvt (l : Fin 32) (x : Line) (s : State) : (setLine l x s).rvt = s.rvt := rfl
@[simp] theorem setLine_mm (l : Fin 32) (x : Line) (s : State) : (setLine l x s).mm = s.mm := rfl
@[simp] theorem setLine_mount (l : Fin 32) (x : Line) (s : State) : (setLine l x s).mount = s.mount := rfl
@[simp] theorem setLine_ntc (l : Fin 32) (x : Line) (s : State) : (setLine l x s).ntc = s.ntc := rfl
@[simp] theorem setLine_pwr (l : Fin 32) (x : Line) (s : State) : (setLine l x s).pwr = s.pwr := rfl
@[simp] theorem setLine_rst (l : Fin 32) (x : Line) (s : State) : (setLine l x s).rst = s.rst := rfl
@[simp] theorem setLine_pending (l : Fin 32) (x : Line) (s : State) : (setLine l x s).pending = s.pending := rfl

/-! ### touch -/

@[simp] theorem touch_hpi (l : Fin 32) (s : State) : (touch l s).hpi = s.hpi := rfl
@[simp] theorem touch_csq (l : Fin 32) (s : State) : (touch l s).csq = s.csq := rfl
@[simp] theorem touch_dp (l : Fin 32) (s : State) : (touch l s).dp = s.dp := rfl
@[simp] theorem touch_rvt (l : Fin 32) (s : State) : (touch l s).rvt = s.rvt := rfl
@[simp] theorem touch_mm (l : Fin 32) (s : State) : (touch l s).mm = s.mm := rfl
@[simp] theorem touch_mount (l : Fin 32) (s : State) : (touch l s).mount = s.mount := rfl
@[simp] theorem touch_ntc (l : Fin 32) (s : State) : (touch l s).ntc = s.ntc := rfl
@[simp] theorem touch_pwr (l : Fin 32) (s : State) : (touch l s).pwr = s.pwr := rfl
@[simp] theorem touch_rst (l : Fin 32) (s : State) : (touch l s).rst = s.rst := rfl
@[simp] theorem touch_pending (l : Fin 32) (s : State) : (touch l s).pending = s.pending := rfl

/-! ### unlist -/

@[simp] theorem unlist_hpi (l : Fin 32) (s : State) : (unlist l s).hpi = s.hpi := rfl
@[simp] theorem unlist_csq (l : Fin 32) (s : State) : (unlist l s).csq = s.csq := rfl
@[simp] theorem unlist_dp (l : Fin 32) (s : State) : (unlist l s).dp = s.dp := rfl
@[simp] theorem unlist_rvt (l : Fin 32) (s : State) : (unlist l s).rvt = s.rvt := rfl
@[simp] theorem unlist_mm (l : Fin 32) (s : State) : (unlist l s).mm = s.mm := rfl
@[simp] theorem unlist_mount (l : Fin 32) (s : State) : (unlist l s).mount = s.mount := rfl
@[simp] theorem unlist_ntc (l : Fin 32) (s : State) : (unlist l s).ntc = s.ntc := rfl
@[simp] theorem unlist_pwr (l : Fin 32) (s : State) : (unlist l s).pwr = s.pwr := rfl
@[simp] theorem unlist_rst (l : Fin 32) (s : State) : (unlist l s).rst = s.rst := rfl
@[simp] theorem unlist_pending (l : Fin 32) (s : State) : (unlist l s).pending = s.pending := rfl

/-! ### evalDraining -/

@[simp] theorem evalDraining_hpi (s : State) : (evalDraining s).hpi = s.hpi := rfl
@[simp] theorem evalDraining_csq (s : State) : (evalDraining s).csq = s.csq := rfl
@[simp] theorem evalDraining_dp (s : State) : (evalDraining s).dp = s.dp := rfl
@[simp] theorem evalDraining_rvt (s : State) : (evalDraining s).rvt = s.rvt := rfl
@[simp] theorem evalDraining_mm (s : State) : (evalDraining s).mm = s.mm := rfl
@[simp] theorem evalDraining_mount (s : State) : (evalDraining s).mount = s.mount := rfl
@[simp] theorem evalDraining_ntc (s : State) : (evalDraining s).ntc = s.ntc := rfl
@[simp] theorem evalDraining_pwr (s : State) : (evalDraining s).pwr = s.pwr := rfl
@[simp] theorem evalDraining_rst (s : State) : (evalDraining s).rst = s.rst := rfl
@[simp] theorem evalDraining_pending (s : State) : (evalDraining s).pending = s.pending := rfl

/-! ### dropMarks -/

@[simp] theorem dropMarks_hpi (n : Fin 8) (s : State) : (dropMarks n s).hpi = s.hpi := rfl
@[simp] theorem dropMarks_csq (n : Fin 8) (s : State) : (dropMarks n s).csq = s.csq := rfl
@[simp] theorem dropMarks_dp (n : Fin 8) (s : State) : (dropMarks n s).dp = s.dp := rfl
@[simp] theorem dropMarks_rvt (n : Fin 8) (s : State) : (dropMarks n s).rvt = s.rvt := rfl
@[simp] theorem dropMarks_mm (n : Fin 8) (s : State) : (dropMarks n s).mm = s.mm := rfl
@[simp] theorem dropMarks_mount (n : Fin 8) (s : State) : (dropMarks n s).mount = s.mount := rfl
@[simp] theorem dropMarks_ntc (n : Fin 8) (s : State) : (dropMarks n s).ntc = s.ntc := rfl
@[simp] theorem dropMarks_pwr (n : Fin 8) (s : State) : (dropMarks n s).pwr = s.pwr := rfl
@[simp] theorem dropMarks_rst (n : Fin 8) (s : State) : (dropMarks n s).rst = s.rst := rfl
@[simp] theorem dropMarks_pending (n : Fin 8) (s : State) : (dropMarks n s).pending = s.pending := rfl

/-! ### satisfyTriples -/

@[simp] theorem satisfyTriples_hpi (p : Triple → Bool) (s : State) : (satisfyTriples p s).hpi = s.hpi := rfl
@[simp] theorem satisfyTriples_dp (p : Triple → Bool) (s : State) : (satisfyTriples p s).dp = s.dp := rfl
@[simp] theorem satisfyTriples_fc (p : Triple → Bool) (s : State) : (satisfyTriples p s).fc = s.fc := rfl
@[simp] theorem satisfyTriples_rvt (p : Triple → Bool) (s : State) : (satisfyTriples p s).rvt = s.rvt := rfl
@[simp] theorem satisfyTriples_mm (p : Triple → Bool) (s : State) : (satisfyTriples p s).mm = s.mm := rfl
@[simp] theorem satisfyTriples_mount (p : Triple → Bool) (s : State) : (satisfyTriples p s).mount = s.mount := rfl
@[simp] theorem satisfyTriples_ntc (p : Triple → Bool) (s : State) : (satisfyTriples p s).ntc = s.ntc := rfl
@[simp] theorem satisfyTriples_pwr (p : Triple → Bool) (s : State) : (satisfyTriples p s).pwr = s.pwr := rfl
@[simp] theorem satisfyTriples_rst (p : Triple → Bool) (s : State) : (satisfyTriples p s).rst = s.rst := rfl
@[simp] theorem satisfyTriples_pending (p : Triple → Bool) (s : State) : (satisfyTriples p s).pending = s.pending := rfl

/-! ### allocFilling -/

@[simp] theorem allocFilling_hpi (l : Fin 32) (f : Nat) (s : State) : (allocFilling l f s).hpi = s.hpi := rfl
@[simp] theorem allocFilling_csq (l : Fin 32) (f : Nat) (s : State) : (allocFilling l f s).csq = s.csq := rfl
@[simp] theorem allocFilling_dp (l : Fin 32) (f : Nat) (s : State) : (allocFilling l f s).dp = s.dp := rfl
@[simp] theorem allocFilling_rvt (l : Fin 32) (f : Nat) (s : State) : (allocFilling l f s).rvt = s.rvt := rfl
@[simp] theorem allocFilling_mm (l : Fin 32) (f : Nat) (s : State) : (allocFilling l f s).mm = s.mm := rfl
@[simp] theorem allocFilling_mount (l : Fin 32) (f : Nat) (s : State) : (allocFilling l f s).mount = s.mount := rfl
@[simp] theorem allocFilling_ntc (l : Fin 32) (f : Nat) (s : State) : (allocFilling l f s).ntc = s.ntc := rfl
@[simp] theorem allocFilling_pwr (l : Fin 32) (f : Nat) (s : State) : (allocFilling l f s).pwr = s.pwr := rfl
@[simp] theorem allocFilling_rst (l : Fin 32) (f : Nat) (s : State) : (allocFilling l f s).rst = s.rst := rfl
@[simp] theorem allocFilling_pending (l : Fin 32) (f : Nat) (s : State) : (allocFilling l f s).pending = s.pending := rfl

/-! ### fillLine -/

@[simp] theorem fillLine_hpi (l : Fin 32) (d : FolioData) (s : State) : (fillLine l d s).hpi = s.hpi := rfl
@[simp] theorem fillLine_csq (l : Fin 32) (d : FolioData) (s : State) : (fillLine l d s).csq = s.csq := rfl
@[simp] theorem fillLine_dp (l : Fin 32) (d : FolioData) (s : State) : (fillLine l d s).dp = s.dp := rfl
@[simp] theorem fillLine_rvt (l : Fin 32) (d : FolioData) (s : State) : (fillLine l d s).rvt = s.rvt := rfl
@[simp] theorem fillLine_mm (l : Fin 32) (d : FolioData) (s : State) : (fillLine l d s).mm = s.mm := rfl
@[simp] theorem fillLine_mount (l : Fin 32) (d : FolioData) (s : State) : (fillLine l d s).mount = s.mount := rfl
@[simp] theorem fillLine_ntc (l : Fin 32) (d : FolioData) (s : State) : (fillLine l d s).ntc = s.ntc := rfl
@[simp] theorem fillLine_pwr (l : Fin 32) (d : FolioData) (s : State) : (fillLine l d s).pwr = s.pwr := rfl
@[simp] theorem fillLine_rst (l : Fin 32) (d : FolioData) (s : State) : (fillLine l d s).rst = s.rst := rfl
@[simp] theorem fillLine_pending (l : Fin 32) (d : FolioData) (s : State) : (fillLine l d s).pending = s.pending := rfl

/-! ### modMount -/

@[simp] theorem modMount_hpi (f : Mount → Mount) (s : State) : (modMount f s).hpi = s.hpi := rfl
@[simp] theorem modMount_csq (f : Mount → Mount) (s : State) : (modMount f s).csq = s.csq := rfl
@[simp] theorem modMount_dp (f : Mount → Mount) (s : State) : (modMount f s).dp = s.dp := rfl
@[simp] theorem modMount_fc (f : Mount → Mount) (s : State) : (modMount f s).fc = s.fc := rfl
@[simp] theorem modMount_rvt (f : Mount → Mount) (s : State) : (modMount f s).rvt = s.rvt := rfl
@[simp] theorem modMount_mm (f : Mount → Mount) (s : State) : (modMount f s).mm = s.mm := rfl
@[simp] theorem modMount_ntc (f : Mount → Mount) (s : State) : (modMount f s).ntc = s.ntc := rfl
@[simp] theorem modMount_pwr (f : Mount → Mount) (s : State) : (modMount f s).pwr = s.pwr := rfl
@[simp] theorem modMount_rst (f : Mount → Mount) (s : State) : (modMount f s).rst = s.rst := rfl
@[simp] theorem modMount_pending (f : Mount → Mount) (s : State) : (modMount f s).pending = s.pending := rfl

/-! ### evalPower -/

@[simp] theorem evalPower_hpi (s : State) : (evalPower s).hpi = s.hpi := rfl
@[simp] theorem evalPower_csq (s : State) : (evalPower s).csq = s.csq := rfl
@[simp] theorem evalPower_dp (s : State) : (evalPower s).dp = s.dp := rfl
@[simp] theorem evalPower_fc (s : State) : (evalPower s).fc = s.fc := rfl
@[simp] theorem evalPower_rvt (s : State) : (evalPower s).rvt = s.rvt := rfl
@[simp] theorem evalPower_mm (s : State) : (evalPower s).mm = s.mm := rfl
@[simp] theorem evalPower_mount (s : State) : (evalPower s).mount = s.mount := rfl
@[simp] theorem evalPower_ntc (s : State) : (evalPower s).ntc = s.ntc := rfl
@[simp] theorem evalPower_rst (s : State) : (evalPower s).rst = s.rst := rfl
@[simp] theorem evalPower_pending (s : State) : (evalPower s).pending = s.pending := rfl

/-! ### requestMedia -/

@[simp] theorem requestMedia_hpi (a : Apply) (r : MediaReq) (s : State) : (requestMedia a r s).hpi = s.hpi := rfl
@[simp] theorem requestMedia_dp (a : Apply) (r : MediaReq) (s : State) : (requestMedia a r s).dp = s.dp := rfl
@[simp] theorem requestMedia_fc (a : Apply) (r : MediaReq) (s : State) : (requestMedia a r s).fc = s.fc := rfl
@[simp] theorem requestMedia_rvt (a : Apply) (r : MediaReq) (s : State) : (requestMedia a r s).rvt = s.rvt := rfl
@[simp] theorem requestMedia_mm (a : Apply) (r : MediaReq) (s : State) : (requestMedia a r s).mm = s.mm := rfl
@[simp] theorem requestMedia_mount (a : Apply) (r : MediaReq) (s : State) : (requestMedia a r s).mount = s.mount := rfl
@[simp] theorem requestMedia_ntc (a : Apply) (r : MediaReq) (s : State) : (requestMedia a r s).ntc = s.ntc := rfl
@[simp] theorem requestMedia_pwr (a : Apply) (r : MediaReq) (s : State) : (requestMedia a r s).pwr = s.pwr := rfl
@[simp] theorem requestMedia_rst (a : Apply) (r : MediaReq) (s : State) : (requestMedia a r s).rst = s.rst := rfl
@[simp] theorem requestMedia_pending (a : Apply) (r : MediaReq) (s : State) : (requestMedia a r s).pending = s.pending := rfl

/-! ### nextStep -/

@[simp] theorem nextStep_hpi (a : Apply) (s : State) : (nextStep a s).hpi = s.hpi := rfl
@[simp] theorem nextStep_dp (a : Apply) (s : State) : (nextStep a s).dp = s.dp := rfl
@[simp] theorem nextStep_fc (a : Apply) (s : State) : (nextStep a s).fc = s.fc := rfl
@[simp] theorem nextStep_rvt (a : Apply) (s : State) : (nextStep a s).rvt = s.rvt := rfl
@[simp] theorem nextStep_mm (a : Apply) (s : State) : (nextStep a s).mm = s.mm := rfl
@[simp] theorem nextStep_mount (a : Apply) (s : State) : (nextStep a s).mount = s.mount := rfl
@[simp] theorem nextStep_ntc (a : Apply) (s : State) : (nextStep a s).ntc = s.ntc := rfl
@[simp] theorem nextStep_pwr (a : Apply) (s : State) : (nextStep a s).pwr = s.pwr := rfl
@[simp] theorem nextStep_rst (a : Apply) (s : State) : (nextStep a s).rst = s.rst := rfl
@[simp] theorem nextStep_pending (a : Apply) (s : State) : (nextStep a s).pending = s.pending := rfl

/-! ### discardFrame -/

@[simp] theorem discardFrame_csq (s : State) : (discardFrame s).csq = s.csq := rfl
@[simp] theorem discardFrame_dp (s : State) : (discardFrame s).dp = s.dp := rfl
@[simp] theorem discardFrame_fc (s : State) : (discardFrame s).fc = s.fc := rfl
@[simp] theorem discardFrame_rvt (s : State) : (discardFrame s).rvt = s.rvt := rfl
@[simp] theorem discardFrame_mm (s : State) : (discardFrame s).mm = s.mm := rfl
@[simp] theorem discardFrame_mount (s : State) : (discardFrame s).mount = s.mount := rfl
@[simp] theorem discardFrame_ntc (s : State) : (discardFrame s).ntc = s.ntc := rfl
@[simp] theorem discardFrame_pwr (s : State) : (discardFrame s).pwr = s.pwr := rfl
@[simp] theorem discardFrame_rst (s : State) : (discardFrame s).rst = s.rst := rfl
@[simp] theorem discardFrame_pending (s : State) : (discardFrame s).pending = s.pending := rfl

/-! ### wordDone -/

@[simp] theorem wordDone_csq (s : State) : (wordDone s).csq = s.csq := rfl
@[simp] theorem wordDone_dp (s : State) : (wordDone s).dp = s.dp := rfl
@[simp] theorem wordDone_fc (s : State) : (wordDone s).fc = s.fc := rfl
@[simp] theorem wordDone_rvt (s : State) : (wordDone s).rvt = s.rvt := rfl
@[simp] theorem wordDone_mm (s : State) : (wordDone s).mm = s.mm := rfl
@[simp] theorem wordDone_mount (s : State) : (wordDone s).mount = s.mount := rfl
@[simp] theorem wordDone_ntc (s : State) : (wordDone s).ntc = s.ntc := rfl
@[simp] theorem wordDone_pwr (s : State) : (wordDone s).pwr = s.pwr := rfl
@[simp] theorem wordDone_rst (s : State) : (wordDone s).rst = s.rst := rfl
@[simp] theorem wordDone_pending (s : State) : (wordDone s).pending = s.pending := rfl

/-! ### captureWord -/

@[simp] theorem captureWord_csq (s : State) : (captureWord s).csq = s.csq := rfl
@[simp] theorem captureWord_dp (s : State) : (captureWord s).dp = s.dp := rfl
@[simp] theorem captureWord_fc (s : State) : (captureWord s).fc = s.fc := rfl
@[simp] theorem captureWord_rvt (s : State) : (captureWord s).rvt = s.rvt := rfl
@[simp] theorem captureWord_mm (s : State) : (captureWord s).mm = s.mm := rfl
@[simp] theorem captureWord_mount (s : State) : (captureWord s).mount = s.mount := rfl
@[simp] theorem captureWord_ntc (s : State) : (captureWord s).ntc = s.ntc := rfl
@[simp] theorem captureWord_pwr (s : State) : (captureWord s).pwr = s.pwr := rfl
@[simp] theorem captureWord_rst (s : State) : (captureWord s).rst = s.rst := rfl
@[simp] theorem captureWord_pending (s : State) : (captureWord s).pending = s.pending := rfl

/-! ### pushClaim -/

@[simp] theorem pushClaim_hpi (v : Nat) (s : State) : (pushClaim v s).hpi = s.hpi := rfl
@[simp] theorem pushClaim_csq (v : Nat) (s : State) : (pushClaim v s).csq = s.csq := rfl
@[simp] theorem pushClaim_dp (v : Nat) (s : State) : (pushClaim v s).dp = s.dp := rfl
@[simp] theorem pushClaim_fc (v : Nat) (s : State) : (pushClaim v s).fc = s.fc := rfl
@[simp] theorem pushClaim_rvt (v : Nat) (s : State) : (pushClaim v s).rvt = s.rvt := rfl
@[simp] theorem pushClaim_mm (v : Nat) (s : State) : (pushClaim v s).mm = s.mm := rfl
@[simp] theorem pushClaim_mount (v : Nat) (s : State) : (pushClaim v s).mount = s.mount := rfl
@[simp] theorem pushClaim_pwr (v : Nat) (s : State) : (pushClaim v s).pwr = s.pwr := rfl
@[simp] theorem pushClaim_rst (v : Nat) (s : State) : (pushClaim v s).rst = s.rst := rfl
@[simp] theorem pushClaim_pending (v : Nat) (s : State) : (pushClaim v s).pending = s.pending := rfl

/-! ### setEvent, within ntc -/

@[simp] theorem setEvent_ntc_evEnable (e : Event) (s : State) : (setEvent e s).ntc.evEnable = s.ntc.evEnable := rfl
@[simp] theorem setEvent_ntc_evLevel (e : Event) (s : State) : (setEvent e s).ntc.evLevel = s.ntc.evLevel := rfl
@[simp] theorem setEvent_ntc_faults (e : Event) (s : State) : (setEvent e s).ntc.faults = s.ntc.faults := rfl
@[simp] theorem setEvent_ntc_f2Detail (e : Event) (s : State) : (setEvent e s).ntc.f2Detail = s.ntc.f2Detail := rfl
@[simp] theorem setEvent_ntc_level (e : Event) (s : State) : (setEvent e s).ntc.level = s.ntc.level := rfl
@[simp] theorem setEvent_ntc_stack (e : Event) (s : State) : (setEvent e s).ntc.stack = s.ntc.stack := rfl
@[simp] theorem setEvent_ntc_nestOff (e : Event) (s : State) : (setEvent e s).ntc.nestOff = s.ntc.nestOff := rfl
@[simp] theorem setEvent_ntc_quiet (e : Event) (s : State) : (setEvent e s).ntc.quiet = s.ntc.quiet := rfl
@[simp] theorem setEvent_ntc_threshold (e : Event) (s : State) : (setEvent e s).ntc.threshold = s.ntc.threshold := rfl
@[simp] theorem setEvent_ntc_timeout (e : Event) (s : State) : (setEvent e s).ntc.timeout = s.ntc.timeout := rfl
@[simp] theorem setEvent_ntc_unannounced (e : Event) (s : State) : (setEvent e s).ntc.unannounced = s.ntc.unannounced := rfl
@[simp] theorem setEvent_ntc_timer (e : Event) (s : State) : (setEvent e s).ntc.timer = s.ntc.timer := rfl

/-! ### setFault, within ntc -/

@[simp] theorem setFault_ntc_evPending (f : FaultCode) (s : State) : (setFault f s).ntc.evPending = s.ntc.evPending := rfl
@[simp] theorem setFault_ntc_evEnable (f : FaultCode) (s : State) : (setFault f s).ntc.evEnable = s.ntc.evEnable := rfl
@[simp] theorem setFault_ntc_evLevel (f : FaultCode) (s : State) : (setFault f s).ntc.evLevel = s.ntc.evLevel := rfl
@[simp] theorem setFault_ntc_f2Detail (f : FaultCode) (s : State) : (setFault f s).ntc.f2Detail = s.ntc.f2Detail := rfl
@[simp] theorem setFault_ntc_level (f : FaultCode) (s : State) : (setFault f s).ntc.level = s.ntc.level := rfl
@[simp] theorem setFault_ntc_stack (f : FaultCode) (s : State) : (setFault f s).ntc.stack = s.ntc.stack := rfl
@[simp] theorem setFault_ntc_nestOff (f : FaultCode) (s : State) : (setFault f s).ntc.nestOff = s.ntc.nestOff := rfl
@[simp] theorem setFault_ntc_quiet (f : FaultCode) (s : State) : (setFault f s).ntc.quiet = s.ntc.quiet := rfl
@[simp] theorem setFault_ntc_threshold (f : FaultCode) (s : State) : (setFault f s).ntc.threshold = s.ntc.threshold := rfl
@[simp] theorem setFault_ntc_timeout (f : FaultCode) (s : State) : (setFault f s).ntc.timeout = s.ntc.timeout := rfl
@[simp] theorem setFault_ntc_unannounced (f : FaultCode) (s : State) : (setFault f s).ntc.unannounced = s.ntc.unannounced := rfl
@[simp] theorem setFault_ntc_timer (f : FaultCode) (s : State) : (setFault f s).ntc.timer = s.ntc.timer := rfl

/-! ### announce, within ntc -/

@[simp] theorem announce_ntc_evEnable (s : State) : (announce s).ntc.evEnable = s.ntc.evEnable := rfl
@[simp] theorem announce_ntc_evLevel (s : State) : (announce s).ntc.evLevel = s.ntc.evLevel := rfl
@[simp] theorem announce_ntc_faults (s : State) : (announce s).ntc.faults = s.ntc.faults := rfl
@[simp] theorem announce_ntc_f2Detail (s : State) : (announce s).ntc.f2Detail = s.ntc.f2Detail := rfl
@[simp] theorem announce_ntc_level (s : State) : (announce s).ntc.level = s.ntc.level := rfl
@[simp] theorem announce_ntc_stack (s : State) : (announce s).ntc.stack = s.ntc.stack := rfl
@[simp] theorem announce_ntc_nestOff (s : State) : (announce s).ntc.nestOff = s.ntc.nestOff := rfl
@[simp] theorem announce_ntc_quiet (s : State) : (announce s).ntc.quiet = s.ntc.quiet := rfl
@[simp] theorem announce_ntc_threshold (s : State) : (announce s).ntc.threshold = s.ntc.threshold := rfl
@[simp] theorem announce_ntc_timeout (s : State) : (announce s).ntc.timeout = s.ntc.timeout := rfl

/-! ### setSlot, within csq -/

@[simp] theorem setSlot_csq_cd (n : Fin 8) (x : Slot) (s : State) : (setSlot n x s).csq.cd = s.csq.cd := rfl
@[simp] theorem setSlot_csq_runQueue (n : Fin 8) (x : Slot) (s : State) : (setSlot n x s).csq.runQueue = s.csq.runQueue := rfl
@[simp] theorem setSlot_csq_completions (n : Fin 8) (x : Slot) (s : State) : (setSlot n x s).csq.completions = s.csq.completions := rfl
@[simp] theorem setSlot_csq_apply (n : Fin 8) (x : Slot) (s : State) : (setSlot n x s).csq.apply = s.csq.apply := rfl

/-! ### modSlot, within csq -/

@[simp] theorem modSlot_csq_cd (n : Fin 8) (f : Slot → Slot) (s : State) : (modSlot n f s).csq.cd = s.csq.cd := rfl
@[simp] theorem modSlot_csq_runQueue (n : Fin 8) (f : Slot → Slot) (s : State) : (modSlot n f s).csq.runQueue = s.csq.runQueue := rfl
@[simp] theorem modSlot_csq_completions (n : Fin 8) (f : Slot → Slot) (s : State) : (modSlot n f s).csq.completions = s.csq.completions := rfl
@[simp] theorem modSlot_csq_apply (n : Fin 8) (f : Slot → Slot) (s : State) : (modSlot n f s).csq.apply = s.csq.apply := rfl

/-! ### mapSlots, within csq -/

@[simp] theorem mapSlots_csq_cd (f : Slot → Slot) (s : State) : (mapSlots f s).csq.cd = s.csq.cd := rfl
@[simp] theorem mapSlots_csq_runQueue (f : Slot → Slot) (s : State) : (mapSlots f s).csq.runQueue = s.csq.runQueue := rfl
@[simp] theorem mapSlots_csq_completions (f : Slot → Slot) (s : State) : (mapSlots f s).csq.completions = s.csq.completions := rfl
@[simp] theorem mapSlots_csq_apply (f : Slot → Slot) (s : State) : (mapSlots f s).csq.apply = s.csq.apply := rfl

/-! ### setApply, within csq -/

@[simp] theorem setApply_csq_cd (a : Option Apply) (s : State) : (setApply a s).csq.cd = s.csq.cd := rfl
@[simp] theorem setApply_csq_slots (a : Option Apply) (s : State) : (setApply a s).csq.slots = s.csq.slots := rfl
@[simp] theorem setApply_csq_runQueue (a : Option Apply) (s : State) : (setApply a s).csq.runQueue = s.csq.runQueue := rfl
@[simp] theorem setApply_csq_completions (a : Option Apply) (s : State) : (setApply a s).csq.completions = s.csq.completions := rfl

/-! ### putEntry, within mm -/

@[simp] theorem putEntry_mm_flash (f : Nat) (e : MapEntry) (s : State) : (putEntry f e s).mm.flash = s.mm.flash := rfl
@[simp] theorem putEntry_mm_seq (f : Nat) (e : MapEntry) (s : State) : (putEntry f e s).mm.seq = s.mm.seq := rfl
@[simp] theorem putEntry_mm_groups (f : Nat) (e : MapEntry) (s : State) : (putEntry f e s).mm.groups = s.mm.groups := rfl
@[simp] theorem putEntry_mm_hostOpen (f : Nat) (e : MapEntry) (s : State) : (putEntry f e s).mm.hostOpen = s.mm.hostOpen := rfl
@[simp] theorem putEntry_mm_reclaimOpen (f : Nat) (e : MapEntry) (s : State) : (putEntry f e s).mm.reclaimOpen = s.mm.reclaimOpen := rfl
@[simp] theorem putEntry_mm_commitNotes (f : Nat) (e : MapEntry) (s : State) : (putEntry f e s).mm.commitNotes = s.mm.commitNotes := rfl
@[simp] theorem putEntry_mm_defects (f : Nat) (e : MapEntry) (s : State) : (putEntry f e s).mm.defects = s.mm.defects := rfl
@[simp] theorem putEntry_mm_reclaimFill (f : Nat) (e : MapEntry) (s : State) : (putEntry f e s).mm.reclaimFill = s.mm.reclaimFill := rfl
@[simp] theorem putEntry_mm_victim (f : Nat) (e : MapEntry) (s : State) : (putEntry f e s).mm.victim = s.mm.victim := rfl
@[simp] theorem putEntry_mm_relocQueue (f : Nat) (e : MapEntry) (s : State) : (putEntry f e s).mm.relocQueue = s.mm.relocQueue := rfl
@[simp] theorem putEntry_mm_relocCopy (f : Nat) (e : MapEntry) (s : State) : (putEntry f e s).mm.relocCopy = s.mm.relocCopy := rfl
@[simp] theorem putEntry_mm_readOnly (f : Nat) (e : MapEntry) (s : State) : (putEntry f e s).mm.readOnly = s.mm.readOnly := rfl
@[simp] theorem putEntry_mm_port (f : Nat) (e : MapEntry) (s : State) : (putEntry f e s).mm.port = s.mm.port := rfl
@[simp] theorem putEntry_mm_health (f : Nat) (e : MapEntry) (s : State) : (putEntry f e s).mm.health = s.mm.health := rfl

/-! ### putGroup, within mm -/

@[simp] theorem putGroup_mm_flash (g : Nat) (x : Group) (s : State) : (putGroup g x s).mm.flash = s.mm.flash := rfl
@[simp] theorem putGroup_mm_map (g : Nat) (x : Group) (s : State) : (putGroup g x s).mm.map = s.mm.map := rfl
@[simp] theorem putGroup_mm_seq (g : Nat) (x : Group) (s : State) : (putGroup g x s).mm.seq = s.mm.seq := rfl
@[simp] theorem putGroup_mm_hostOpen (g : Nat) (x : Group) (s : State) : (putGroup g x s).mm.hostOpen = s.mm.hostOpen := rfl
@[simp] theorem putGroup_mm_reclaimOpen (g : Nat) (x : Group) (s : State) : (putGroup g x s).mm.reclaimOpen = s.mm.reclaimOpen := rfl
@[simp] theorem putGroup_mm_commitNotes (g : Nat) (x : Group) (s : State) : (putGroup g x s).mm.commitNotes = s.mm.commitNotes := rfl
@[simp] theorem putGroup_mm_defects (g : Nat) (x : Group) (s : State) : (putGroup g x s).mm.defects = s.mm.defects := rfl
@[simp] theorem putGroup_mm_reclaimFill (g : Nat) (x : Group) (s : State) : (putGroup g x s).mm.reclaimFill = s.mm.reclaimFill := rfl
@[simp] theorem putGroup_mm_victim (g : Nat) (x : Group) (s : State) : (putGroup g x s).mm.victim = s.mm.victim := rfl
@[simp] theorem putGroup_mm_relocQueue (g : Nat) (x : Group) (s : State) : (putGroup g x s).mm.relocQueue = s.mm.relocQueue := rfl
@[simp] theorem putGroup_mm_relocCopy (g : Nat) (x : Group) (s : State) : (putGroup g x s).mm.relocCopy = s.mm.relocCopy := rfl
@[simp] theorem putGroup_mm_readOnly (g : Nat) (x : Group) (s : State) : (putGroup g x s).mm.readOnly = s.mm.readOnly := rfl
@[simp] theorem putGroup_mm_port (g : Nat) (x : Group) (s : State) : (putGroup g x s).mm.port = s.mm.port := rfl
@[simp] theorem putGroup_mm_health (g : Nat) (x : Group) (s : State) : (putGroup g x s).mm.health = s.mm.health := rfl

/-! ### openGroup, within mm -/

@[simp] theorem openGroup_mm_flash (g : Nat) (s : State) : (openGroup g s).mm.flash = s.mm.flash := rfl
@[simp] theorem openGroup_mm_map (g : Nat) (s : State) : (openGroup g s).mm.map = s.mm.map := rfl
@[simp] theorem openGroup_mm_seq (g : Nat) (s : State) : (openGroup g s).mm.seq = s.mm.seq := rfl
@[simp] theorem openGroup_mm_hostOpen (g : Nat) (s : State) : (openGroup g s).mm.hostOpen = s.mm.hostOpen := rfl
@[simp] theorem openGroup_mm_reclaimOpen (g : Nat) (s : State) : (openGroup g s).mm.reclaimOpen = s.mm.reclaimOpen := rfl
@[simp] theorem openGroup_mm_commitNotes (g : Nat) (s : State) : (openGroup g s).mm.commitNotes = s.mm.commitNotes := rfl
@[simp] theorem openGroup_mm_defects (g : Nat) (s : State) : (openGroup g s).mm.defects = s.mm.defects := rfl
@[simp] theorem openGroup_mm_reclaimFill (g : Nat) (s : State) : (openGroup g s).mm.reclaimFill = s.mm.reclaimFill := rfl
@[simp] theorem openGroup_mm_victim (g : Nat) (s : State) : (openGroup g s).mm.victim = s.mm.victim := rfl
@[simp] theorem openGroup_mm_relocQueue (g : Nat) (s : State) : (openGroup g s).mm.relocQueue = s.mm.relocQueue := rfl
@[simp] theorem openGroup_mm_relocCopy (g : Nat) (s : State) : (openGroup g s).mm.relocCopy = s.mm.relocCopy := rfl
@[simp] theorem openGroup_mm_readOnly (g : Nat) (s : State) : (openGroup g s).mm.readOnly = s.mm.readOnly := rfl
@[simp] theorem openGroup_mm_port (g : Nat) (s : State) : (openGroup g s).mm.port = s.mm.port := rfl
@[simp] theorem openGroup_mm_health (g : Nat) (s : State) : (openGroup g s).mm.health = s.mm.health := rfl

/-! ### vacateRole, within mm -/

@[simp] theorem vacateRole_mm_flash (g : Nat) (s : State) : (vacateRole g s).mm.flash = s.mm.flash := rfl
@[simp] theorem vacateRole_mm_map (g : Nat) (s : State) : (vacateRole g s).mm.map = s.mm.map := rfl
@[simp] theorem vacateRole_mm_seq (g : Nat) (s : State) : (vacateRole g s).mm.seq = s.mm.seq := rfl
@[simp] theorem vacateRole_mm_groups (g : Nat) (s : State) : (vacateRole g s).mm.groups = s.mm.groups := rfl
@[simp] theorem vacateRole_mm_commitNotes (g : Nat) (s : State) : (vacateRole g s).mm.commitNotes = s.mm.commitNotes := rfl
@[simp] theorem vacateRole_mm_defects (g : Nat) (s : State) : (vacateRole g s).mm.defects = s.mm.defects := rfl
@[simp] theorem vacateRole_mm_reclaimFill (g : Nat) (s : State) : (vacateRole g s).mm.reclaimFill = s.mm.reclaimFill := rfl
@[simp] theorem vacateRole_mm_victim (g : Nat) (s : State) : (vacateRole g s).mm.victim = s.mm.victim := rfl
@[simp] theorem vacateRole_mm_relocQueue (g : Nat) (s : State) : (vacateRole g s).mm.relocQueue = s.mm.relocQueue := rfl
@[simp] theorem vacateRole_mm_relocCopy (g : Nat) (s : State) : (vacateRole g s).mm.relocCopy = s.mm.relocCopy := rfl
@[simp] theorem vacateRole_mm_readOnly (g : Nat) (s : State) : (vacateRole g s).mm.readOnly = s.mm.readOnly := rfl
@[simp] theorem vacateRole_mm_port (g : Nat) (s : State) : (vacateRole g s).mm.port = s.mm.port := rfl
@[simp] theorem vacateRole_mm_health (g : Nat) (s : State) : (vacateRole g s).mm.health = s.mm.health := rfl

/-! ### putCell, within mm -/

@[simp] theorem putCell_mm_map (l : Loc) (p : Prog) (c : Bool) (s : State) : (putCell l p c s).mm.map = s.mm.map := rfl
@[simp] theorem putCell_mm_seq (l : Loc) (p : Prog) (c : Bool) (s : State) : (putCell l p c s).mm.seq = s.mm.seq := rfl
@[simp] theorem putCell_mm_groups (l : Loc) (p : Prog) (c : Bool) (s : State) : (putCell l p c s).mm.groups = s.mm.groups := rfl
@[simp] theorem putCell_mm_hostOpen (l : Loc) (p : Prog) (c : Bool) (s : State) : (putCell l p c s).mm.hostOpen = s.mm.hostOpen := rfl
@[simp] theorem putCell_mm_reclaimOpen (l : Loc) (p : Prog) (c : Bool) (s : State) : (putCell l p c s).mm.reclaimOpen = s.mm.reclaimOpen := rfl
@[simp] theorem putCell_mm_commitNotes (l : Loc) (p : Prog) (c : Bool) (s : State) : (putCell l p c s).mm.commitNotes = s.mm.commitNotes := rfl
@[simp] theorem putCell_mm_defects (l : Loc) (p : Prog) (c : Bool) (s : State) : (putCell l p c s).mm.defects = s.mm.defects := rfl
@[simp] theorem putCell_mm_reclaimFill (l : Loc) (p : Prog) (c : Bool) (s : State) : (putCell l p c s).mm.reclaimFill = s.mm.reclaimFill := rfl
@[simp] theorem putCell_mm_victim (l : Loc) (p : Prog) (c : Bool) (s : State) : (putCell l p c s).mm.victim = s.mm.victim := rfl
@[simp] theorem putCell_mm_relocQueue (l : Loc) (p : Prog) (c : Bool) (s : State) : (putCell l p c s).mm.relocQueue = s.mm.relocQueue := rfl
@[simp] theorem putCell_mm_relocCopy (l : Loc) (p : Prog) (c : Bool) (s : State) : (putCell l p c s).mm.relocCopy = s.mm.relocCopy := rfl
@[simp] theorem putCell_mm_readOnly (l : Loc) (p : Prog) (c : Bool) (s : State) : (putCell l p c s).mm.readOnly = s.mm.readOnly := rfl
@[simp] theorem putCell_mm_port (l : Loc) (p : Prog) (c : Bool) (s : State) : (putCell l p c s).mm.port = s.mm.port := rfl
@[simp] theorem putCell_mm_health (l : Loc) (p : Prog) (c : Bool) (s : State) : (putCell l p c s).mm.health = s.mm.health := rfl

/-! ### clearPort, within mm -/

@[simp] theorem clearPort_mm_flash (s : State) : (clearPort s).mm.flash = s.mm.flash := rfl
@[simp] theorem clearPort_mm_map (s : State) : (clearPort s).mm.map = s.mm.map := rfl
@[simp] theorem clearPort_mm_seq (s : State) : (clearPort s).mm.seq = s.mm.seq := rfl
@[simp] theorem clearPort_mm_groups (s : State) : (clearPort s).mm.groups = s.mm.groups := rfl
@[simp] theorem clearPort_mm_hostOpen (s : State) : (clearPort s).mm.hostOpen = s.mm.hostOpen := rfl
@[simp] theorem clearPort_mm_reclaimOpen (s : State) : (clearPort s).mm.reclaimOpen = s.mm.reclaimOpen := rfl
@[simp] theorem clearPort_mm_commitNotes (s : State) : (clearPort s).mm.commitNotes = s.mm.commitNotes := rfl
@[simp] theorem clearPort_mm_defects (s : State) : (clearPort s).mm.defects = s.mm.defects := rfl
@[simp] theorem clearPort_mm_reclaimFill (s : State) : (clearPort s).mm.reclaimFill = s.mm.reclaimFill := rfl
@[simp] theorem clearPort_mm_victim (s : State) : (clearPort s).mm.victim = s.mm.victim := rfl
@[simp] theorem clearPort_mm_relocQueue (s : State) : (clearPort s).mm.relocQueue = s.mm.relocQueue := rfl
@[simp] theorem clearPort_mm_relocCopy (s : State) : (clearPort s).mm.relocCopy = s.mm.relocCopy := rfl
@[simp] theorem clearPort_mm_readOnly (s : State) : (clearPort s).mm.readOnly = s.mm.readOnly := rfl
@[simp] theorem clearPort_mm_health (s : State) : (clearPort s).mm.health = s.mm.health := rfl

/-! ### takeSeq, within mm -/

@[simp] theorem takeSeq_mm_flash (n : Nat) (s : State) : (takeSeq n s).mm.flash = s.mm.flash := rfl
@[simp] theorem takeSeq_mm_map (n : Nat) (s : State) : (takeSeq n s).mm.map = s.mm.map := rfl
@[simp] theorem takeSeq_mm_groups (n : Nat) (s : State) : (takeSeq n s).mm.groups = s.mm.groups := rfl
@[simp] theorem takeSeq_mm_hostOpen (n : Nat) (s : State) : (takeSeq n s).mm.hostOpen = s.mm.hostOpen := rfl
@[simp] theorem takeSeq_mm_reclaimOpen (n : Nat) (s : State) : (takeSeq n s).mm.reclaimOpen = s.mm.reclaimOpen := rfl
@[simp] theorem takeSeq_mm_commitNotes (n : Nat) (s : State) : (takeSeq n s).mm.commitNotes = s.mm.commitNotes := rfl
@[simp] theorem takeSeq_mm_defects (n : Nat) (s : State) : (takeSeq n s).mm.defects = s.mm.defects := rfl
@[simp] theorem takeSeq_mm_reclaimFill (n : Nat) (s : State) : (takeSeq n s).mm.reclaimFill = s.mm.reclaimFill := rfl
@[simp] theorem takeSeq_mm_victim (n : Nat) (s : State) : (takeSeq n s).mm.victim = s.mm.victim := rfl
@[simp] theorem takeSeq_mm_relocQueue (n : Nat) (s : State) : (takeSeq n s).mm.relocQueue = s.mm.relocQueue := rfl
@[simp] theorem takeSeq_mm_relocCopy (n : Nat) (s : State) : (takeSeq n s).mm.relocCopy = s.mm.relocCopy := rfl
@[simp] theorem takeSeq_mm_readOnly (n : Nat) (s : State) : (takeSeq n s).mm.readOnly = s.mm.readOnly := rfl
@[simp] theorem takeSeq_mm_port (n : Nat) (s : State) : (takeSeq n s).mm.port = s.mm.port := rfl
@[simp] theorem takeSeq_mm_health (n : Nat) (s : State) : (takeSeq n s).mm.health = s.mm.health := rfl

/-! ### modHealth, within mm -/

@[simp] theorem modHealth_mm_flash (f : Health → Health) (s : State) : (modHealth f s).mm.flash = s.mm.flash := rfl
@[simp] theorem modHealth_mm_map (f : Health → Health) (s : State) : (modHealth f s).mm.map = s.mm.map := rfl
@[simp] theorem modHealth_mm_seq (f : Health → Health) (s : State) : (modHealth f s).mm.seq = s.mm.seq := rfl
@[simp] theorem modHealth_mm_groups (f : Health → Health) (s : State) : (modHealth f s).mm.groups = s.mm.groups := rfl
@[simp] theorem modHealth_mm_hostOpen (f : Health → Health) (s : State) : (modHealth f s).mm.hostOpen = s.mm.hostOpen := rfl
@[simp] theorem modHealth_mm_reclaimOpen (f : Health → Health) (s : State) : (modHealth f s).mm.reclaimOpen = s.mm.reclaimOpen := rfl
@[simp] theorem modHealth_mm_commitNotes (f : Health → Health) (s : State) : (modHealth f s).mm.commitNotes = s.mm.commitNotes := rfl
@[simp] theorem modHealth_mm_defects (f : Health → Health) (s : State) : (modHealth f s).mm.defects = s.mm.defects := rfl
@[simp] theorem modHealth_mm_reclaimFill (f : Health → Health) (s : State) : (modHealth f s).mm.reclaimFill = s.mm.reclaimFill := rfl
@[simp] theorem modHealth_mm_victim (f : Health → Health) (s : State) : (modHealth f s).mm.victim = s.mm.victim := rfl
@[simp] theorem modHealth_mm_relocQueue (f : Health → Health) (s : State) : (modHealth f s).mm.relocQueue = s.mm.relocQueue := rfl
@[simp] theorem modHealth_mm_relocCopy (f : Health → Health) (s : State) : (modHealth f s).mm.relocCopy = s.mm.relocCopy := rfl
@[simp] theorem modHealth_mm_readOnly (f : Health → Health) (s : State) : (modHealth f s).mm.readOnly = s.mm.readOnly := rfl
@[simp] theorem modHealth_mm_port (f : Health → Health) (s : State) : (modHealth f s).mm.port = s.mm.port := rfl

/-! ### landCopy, within mm -/

@[simp] theorem landCopy_mm_flash (a b : Loc) (s : State) : (landCopy a b s).mm.flash = s.mm.flash := rfl
@[simp] theorem landCopy_mm_seq (a b : Loc) (s : State) : (landCopy a b s).mm.seq = s.mm.seq := rfl
@[simp] theorem landCopy_mm_groups (a b : Loc) (s : State) : (landCopy a b s).mm.groups = s.mm.groups := rfl
@[simp] theorem landCopy_mm_hostOpen (a b : Loc) (s : State) : (landCopy a b s).mm.hostOpen = s.mm.hostOpen := rfl
@[simp] theorem landCopy_mm_reclaimOpen (a b : Loc) (s : State) : (landCopy a b s).mm.reclaimOpen = s.mm.reclaimOpen := rfl
@[simp] theorem landCopy_mm_defects (a b : Loc) (s : State) : (landCopy a b s).mm.defects = s.mm.defects := rfl
@[simp] theorem landCopy_mm_reclaimFill (a b : Loc) (s : State) : (landCopy a b s).mm.reclaimFill = s.mm.reclaimFill := rfl
@[simp] theorem landCopy_mm_victim (a b : Loc) (s : State) : (landCopy a b s).mm.victim = s.mm.victim := rfl
@[simp] theorem landCopy_mm_relocQueue (a b : Loc) (s : State) : (landCopy a b s).mm.relocQueue = s.mm.relocQueue := rfl
@[simp] theorem landCopy_mm_relocCopy (a b : Loc) (s : State) : (landCopy a b s).mm.relocCopy = s.mm.relocCopy := rfl
@[simp] theorem landCopy_mm_readOnly (a b : Loc) (s : State) : (landCopy a b s).mm.readOnly = s.mm.readOnly := rfl
@[simp] theorem landCopy_mm_port (a b : Loc) (s : State) : (landCopy a b s).mm.port = s.mm.port := rfl
@[simp] theorem landCopy_mm_health (a b : Loc) (s : State) : (landCopy a b s).mm.health = s.mm.health := rfl

/-! ### mountOp, within mm -/

@[simp] theorem mountOp_mm_flash (op : MediaOp) (s : State) : (mountOp op s).mm.flash = s.mm.flash := rfl
@[simp] theorem mountOp_mm_map (op : MediaOp) (s : State) : (mountOp op s).mm.map = s.mm.map := rfl
@[simp] theorem mountOp_mm_seq (op : MediaOp) (s : State) : (mountOp op s).mm.seq = s.mm.seq := rfl
@[simp] theorem mountOp_mm_groups (op : MediaOp) (s : State) : (mountOp op s).mm.groups = s.mm.groups := rfl
@[simp] theorem mountOp_mm_hostOpen (op : MediaOp) (s : State) : (mountOp op s).mm.hostOpen = s.mm.hostOpen := rfl
@[simp] theorem mountOp_mm_reclaimOpen (op : MediaOp) (s : State) : (mountOp op s).mm.reclaimOpen = s.mm.reclaimOpen := rfl
@[simp] theorem mountOp_mm_commitNotes (op : MediaOp) (s : State) : (mountOp op s).mm.commitNotes = s.mm.commitNotes := rfl
@[simp] theorem mountOp_mm_defects (op : MediaOp) (s : State) : (mountOp op s).mm.defects = s.mm.defects := rfl
@[simp] theorem mountOp_mm_reclaimFill (op : MediaOp) (s : State) : (mountOp op s).mm.reclaimFill = s.mm.reclaimFill := rfl
@[simp] theorem mountOp_mm_victim (op : MediaOp) (s : State) : (mountOp op s).mm.victim = s.mm.victim := rfl
@[simp] theorem mountOp_mm_relocQueue (op : MediaOp) (s : State) : (mountOp op s).mm.relocQueue = s.mm.relocQueue := rfl
@[simp] theorem mountOp_mm_relocCopy (op : MediaOp) (s : State) : (mountOp op s).mm.relocCopy = s.mm.relocCopy := rfl
@[simp] theorem mountOp_mm_readOnly (op : MediaOp) (s : State) : (mountOp op s).mm.readOnly = s.mm.readOnly := rfl
@[simp] theorem mountOp_mm_health (op : MediaOp) (s : State) : (mountOp op s).mm.health = s.mm.health := rfl

/-! ### grant, within mm -/

@[simp] theorem grant_mm_flash (q : Requester) (op : MediaOp) (s : State) : (grant q op s).mm.flash = s.mm.flash := rfl
@[simp] theorem grant_mm_map (q : Requester) (op : MediaOp) (s : State) : (grant q op s).mm.map = s.mm.map := rfl
@[simp] theorem grant_mm_seq (q : Requester) (op : MediaOp) (s : State) : (grant q op s).mm.seq = s.mm.seq := rfl
@[simp] theorem grant_mm_groups (q : Requester) (op : MediaOp) (s : State) : (grant q op s).mm.groups = s.mm.groups := rfl
@[simp] theorem grant_mm_hostOpen (q : Requester) (op : MediaOp) (s : State) : (grant q op s).mm.hostOpen = s.mm.hostOpen := rfl
@[simp] theorem grant_mm_reclaimOpen (q : Requester) (op : MediaOp) (s : State) : (grant q op s).mm.reclaimOpen = s.mm.reclaimOpen := rfl
@[simp] theorem grant_mm_commitNotes (q : Requester) (op : MediaOp) (s : State) : (grant q op s).mm.commitNotes = s.mm.commitNotes := rfl
@[simp] theorem grant_mm_defects (q : Requester) (op : MediaOp) (s : State) : (grant q op s).mm.defects = s.mm.defects := rfl
@[simp] theorem grant_mm_reclaimFill (q : Requester) (op : MediaOp) (s : State) : (grant q op s).mm.reclaimFill = s.mm.reclaimFill := rfl
@[simp] theorem grant_mm_victim (q : Requester) (op : MediaOp) (s : State) : (grant q op s).mm.victim = s.mm.victim := rfl
@[simp] theorem grant_mm_relocQueue (q : Requester) (op : MediaOp) (s : State) : (grant q op s).mm.relocQueue = s.mm.relocQueue := rfl
@[simp] theorem grant_mm_relocCopy (q : Requester) (op : MediaOp) (s : State) : (grant q op s).mm.relocCopy = s.mm.relocCopy := rfl
@[simp] theorem grant_mm_readOnly (q : Requester) (op : MediaOp) (s : State) : (grant q op s).mm.readOnly = s.mm.readOnly := rfl
@[simp] theorem grant_mm_health (q : Requester) (op : MediaOp) (s : State) : (grant q op s).mm.health = s.mm.health := rfl

/-! ### endVictim, within mm -/

@[simp] theorem endVictim_mm_flash (g : Nat) (s : State) : (endVictim g s).mm.flash = s.mm.flash := rfl
@[simp] theorem endVictim_mm_map (g : Nat) (s : State) : (endVictim g s).mm.map = s.mm.map := rfl
@[simp] theorem endVictim_mm_seq (g : Nat) (s : State) : (endVictim g s).mm.seq = s.mm.seq := rfl
@[simp] theorem endVictim_mm_groups (g : Nat) (s : State) : (endVictim g s).mm.groups = s.mm.groups := rfl
@[simp] theorem endVictim_mm_hostOpen (g : Nat) (s : State) : (endVictim g s).mm.hostOpen = s.mm.hostOpen := rfl
@[simp] theorem endVictim_mm_reclaimOpen (g : Nat) (s : State) : (endVictim g s).mm.reclaimOpen = s.mm.reclaimOpen := rfl
@[simp] theorem endVictim_mm_commitNotes (g : Nat) (s : State) : (endVictim g s).mm.commitNotes = s.mm.commitNotes := rfl
@[simp] theorem endVictim_mm_defects (g : Nat) (s : State) : (endVictim g s).mm.defects = s.mm.defects := rfl
@[simp] theorem endVictim_mm_reclaimFill (g : Nat) (s : State) : (endVictim g s).mm.reclaimFill = s.mm.reclaimFill := rfl
@[simp] theorem endVictim_mm_relocCopy (g : Nat) (s : State) : (endVictim g s).mm.relocCopy = s.mm.relocCopy := rfl
@[simp] theorem endVictim_mm_readOnly (g : Nat) (s : State) : (endVictim g s).mm.readOnly = s.mm.readOnly := rfl
@[simp] theorem endVictim_mm_port (g : Nat) (s : State) : (endVictim g s).mm.port = s.mm.port := rfl
@[simp] theorem endVictim_mm_health (g : Nat) (s : State) : (endVictim g s).mm.health = s.mm.health := rfl

/-! ### eraseGroup, within mm -/

@[simp] theorem eraseGroup_mm_map (g : Nat) (s : State) : (eraseGroup g s).mm.map = s.mm.map := rfl
@[simp] theorem eraseGroup_mm_seq (g : Nat) (s : State) : (eraseGroup g s).mm.seq = s.mm.seq := rfl
@[simp] theorem eraseGroup_mm_hostOpen (g : Nat) (s : State) : (eraseGroup g s).mm.hostOpen = s.mm.hostOpen := rfl
@[simp] theorem eraseGroup_mm_reclaimOpen (g : Nat) (s : State) : (eraseGroup g s).mm.reclaimOpen = s.mm.reclaimOpen := rfl
@[simp] theorem eraseGroup_mm_commitNotes (g : Nat) (s : State) : (eraseGroup g s).mm.commitNotes = s.mm.commitNotes := rfl
@[simp] theorem eraseGroup_mm_defects (g : Nat) (s : State) : (eraseGroup g s).mm.defects = s.mm.defects := rfl
@[simp] theorem eraseGroup_mm_reclaimFill (g : Nat) (s : State) : (eraseGroup g s).mm.reclaimFill = s.mm.reclaimFill := rfl
@[simp] theorem eraseGroup_mm_victim (g : Nat) (s : State) : (eraseGroup g s).mm.victim = s.mm.victim := rfl
@[simp] theorem eraseGroup_mm_relocQueue (g : Nat) (s : State) : (eraseGroup g s).mm.relocQueue = s.mm.relocQueue := rfl
@[simp] theorem eraseGroup_mm_relocCopy (g : Nat) (s : State) : (eraseGroup g s).mm.relocCopy = s.mm.relocCopy := rfl
@[simp] theorem eraseGroup_mm_readOnly (g : Nat) (s : State) : (eraseGroup g s).mm.readOnly = s.mm.readOnly := rfl
@[simp] theorem eraseGroup_mm_port (g : Nat) (s : State) : (eraseGroup g s).mm.port = s.mm.port := rfl
@[simp] theorem eraseGroup_mm_health (g : Nat) (s : State) : (eraseGroup g s).mm.health = s.mm.health := rfl

/-! ### setLine, within fc -/

@[simp] theorem setLine_fc_lru (l : Fin 32) (x : Line) (s : State) : (setLine l x s).fc.lru = s.fc.lru := rfl
@[simp] theorem setLine_fc_dirtyList (l : Fin 32) (x : Line) (s : State) : (setLine l x s).fc.dirtyList = s.fc.dirtyList := rfl
@[simp] theorem setLine_fc_ticket (l : Fin 32) (x : Line) (s : State) : (setLine l x s).fc.ticket = s.fc.ticket := rfl
@[simp] theorem setLine_fc_draining (l : Fin 32) (x : Line) (s : State) : (setLine l x s).fc.draining = s.fc.draining := rfl
@[simp] theorem setLine_fc_high (l : Fin 32) (x : Line) (s : State) : (setLine l x s).fc.high = s.fc.high := rfl
@[simp] theorem setLine_fc_low (l : Fin 32) (x : Line) (s : State) : (setLine l x s).fc.low = s.fc.low := rfl
@[simp] theorem setLine_fc_wt (l : Fin 32) (x : Line) (s : State) : (setLine l x s).fc.wt = s.fc.wt := rfl

/-! ### touch, within fc -/

@[simp] theorem touch_fc_lines (l : Fin 32) (s : State) : (touch l s).fc.lines = s.fc.lines := rfl
@[simp] theorem touch_fc_dirtyList (l : Fin 32) (s : State) : (touch l s).fc.dirtyList = s.fc.dirtyList := rfl
@[simp] theorem touch_fc_ticket (l : Fin 32) (s : State) : (touch l s).fc.ticket = s.fc.ticket := rfl
@[simp] theorem touch_fc_draining (l : Fin 32) (s : State) : (touch l s).fc.draining = s.fc.draining := rfl
@[simp] theorem touch_fc_high (l : Fin 32) (s : State) : (touch l s).fc.high = s.fc.high := rfl
@[simp] theorem touch_fc_low (l : Fin 32) (s : State) : (touch l s).fc.low = s.fc.low := rfl
@[simp] theorem touch_fc_wt (l : Fin 32) (s : State) : (touch l s).fc.wt = s.fc.wt := rfl

/-! ### unlist, within fc -/

@[simp] theorem unlist_fc_lines (l : Fin 32) (s : State) : (unlist l s).fc.lines = s.fc.lines := rfl
@[simp] theorem unlist_fc_lru (l : Fin 32) (s : State) : (unlist l s).fc.lru = s.fc.lru := rfl
@[simp] theorem unlist_fc_ticket (l : Fin 32) (s : State) : (unlist l s).fc.ticket = s.fc.ticket := rfl
@[simp] theorem unlist_fc_draining (l : Fin 32) (s : State) : (unlist l s).fc.draining = s.fc.draining := rfl
@[simp] theorem unlist_fc_high (l : Fin 32) (s : State) : (unlist l s).fc.high = s.fc.high := rfl
@[simp] theorem unlist_fc_low (l : Fin 32) (s : State) : (unlist l s).fc.low = s.fc.low := rfl
@[simp] theorem unlist_fc_wt (l : Fin 32) (s : State) : (unlist l s).fc.wt = s.fc.wt := rfl

/-! ### dropMarks, within fc -/

@[simp] theorem dropMarks_fc_lru (n : Fin 8) (s : State) : (dropMarks n s).fc.lru = s.fc.lru := rfl
@[simp] theorem dropMarks_fc_dirtyList (n : Fin 8) (s : State) : (dropMarks n s).fc.dirtyList = s.fc.dirtyList := rfl
@[simp] theorem dropMarks_fc_ticket (n : Fin 8) (s : State) : (dropMarks n s).fc.ticket = s.fc.ticket := rfl
@[simp] theorem dropMarks_fc_draining (n : Fin 8) (s : State) : (dropMarks n s).fc.draining = s.fc.draining := rfl
@[simp] theorem dropMarks_fc_high (n : Fin 8) (s : State) : (dropMarks n s).fc.high = s.fc.high := rfl
@[simp] theorem dropMarks_fc_low (n : Fin 8) (s : State) : (dropMarks n s).fc.low = s.fc.low := rfl
@[simp] theorem dropMarks_fc_wt (n : Fin 8) (s : State) : (dropMarks n s).fc.wt = s.fc.wt := rfl

/-! ### evalDraining, within fc -/

@[simp] theorem evalDraining_fc_lines (s : State) : (evalDraining s).fc.lines = s.fc.lines := rfl
@[simp] theorem evalDraining_fc_lru (s : State) : (evalDraining s).fc.lru = s.fc.lru := rfl
@[simp] theorem evalDraining_fc_dirtyList (s : State) : (evalDraining s).fc.dirtyList = s.fc.dirtyList := rfl
@[simp] theorem evalDraining_fc_ticket (s : State) : (evalDraining s).fc.ticket = s.fc.ticket := rfl
@[simp] theorem evalDraining_fc_high (s : State) : (evalDraining s).fc.high = s.fc.high := rfl
@[simp] theorem evalDraining_fc_low (s : State) : (evalDraining s).fc.low = s.fc.low := rfl
@[simp] theorem evalDraining_fc_wt (s : State) : (evalDraining s).fc.wt = s.fc.wt := rfl

/-! ### evalPower, within pwr -/

@[simp] theorem evalPower_pwr_intent (s : State) : (evalPower s).pwr.intent = s.pwr.intent := rfl
@[simp] theorem evalPower_pwr_dozeDelay (s : State) : (evalPower s).pwr.dozeDelay = s.pwr.dozeDelay := rfl
@[simp] theorem evalPower_pwr_powerUp (s : State) : (evalPower s).pwr.powerUp = s.pwr.powerUp := rfl
@[simp] theorem evalPower_pwr_mediaOn (s : State) : (evalPower s).pwr.mediaOn = s.pwr.mediaOn := rfl

/-! ### pushClaim, within ntc -/

@[simp] theorem pushClaim_ntc_evPending (v : Nat) (s : State) : (pushClaim v s).ntc.evPending = s.ntc.evPending := rfl
@[simp] theorem pushClaim_ntc_evEnable (v : Nat) (s : State) : (pushClaim v s).ntc.evEnable = s.ntc.evEnable := rfl
@[simp] theorem pushClaim_ntc_evLevel (v : Nat) (s : State) : (pushClaim v s).ntc.evLevel = s.ntc.evLevel := rfl
@[simp] theorem pushClaim_ntc_faults (v : Nat) (s : State) : (pushClaim v s).ntc.faults = s.ntc.faults := rfl
@[simp] theorem pushClaim_ntc_f2Detail (v : Nat) (s : State) : (pushClaim v s).ntc.f2Detail = s.ntc.f2Detail := rfl
@[simp] theorem pushClaim_ntc_nestOff (v : Nat) (s : State) : (pushClaim v s).ntc.nestOff = s.ntc.nestOff := rfl
@[simp] theorem pushClaim_ntc_quiet (v : Nat) (s : State) : (pushClaim v s).ntc.quiet = s.ntc.quiet := rfl
@[simp] theorem pushClaim_ntc_threshold (v : Nat) (s : State) : (pushClaim v s).ntc.threshold = s.ntc.threshold := rfl
@[simp] theorem pushClaim_ntc_timeout (v : Nat) (s : State) : (pushClaim v s).ntc.timeout = s.ntc.timeout := rfl
@[simp] theorem pushClaim_ntc_unannounced (v : Nat) (s : State) : (pushClaim v s).ntc.unannounced = s.ntc.unannounced := rfl
@[simp] theorem pushClaim_ntc_timer (v : Nat) (s : State) : (pushClaim v s).ntc.timer = s.ntc.timer := rfl

end Sys2Proof.Machine
end

