-- ==== Sys2Proof/Laws/Ops.lean ====
section
/-!
SUPPORT. What the shared operations can change: for each one lemma, `<operation>_frame`, which writes its result as an update
of the state it is given. A proof that needs a field outside the update takes it from there.
-/

namespace Sys2Proof.Machine

/-! ### Events, rejects, completions -/

theorem reject_frame (r : RejectReason) (a b : Byte) (s : State) :
    reject r a b s = { s with
      hpi := { s.hpi with log := (reject r a b s).hpi.log }
      ntc := { s.ntc with evPending := (reject r a b s).ntc.evPending } } := by
  unfold reject
  split <;> rfl

theorem countCompletion_frame (p : Bool) (s : State) :
    countCompletion p s = { s with ntc := { s.ntc with
      evPending := (countCompletion p s).ntc.evPending, unannounced := (countCompletion p s).ntc.unannounced
      timer := (countCompletion p s).ntc.timer } } := by
  unfold countCompletion
  split <;> rfl

theorem setBuf_frame (b : BufId) (x : Buffer) (s : State) :
    setBuf b x s = { s with dp := { s.dp with tb0 := (setBuf b x s).dp.tb0, tb1 := (setBuf b x s).dp.tb1 } } := by
  cases b <;> rfl

theorem releaseBuffer_frame (n : Fin 8) (s : State) : releaseBuffer n s = { s with dp := (releaseBuffer n s).dp } := by
  unfold releaseBuffer
  split <;> dsimp only <;> split <;> first | rfl | (rw [setBuf_frame])

theorem placeFolio_frame (n : Fin 8) (d : FolioData) (s : State) :
    placeFolio n d s = { s with dp := { s.dp with tb0 := (placeFolio n d s).dp.tb0, tb1 := (placeFolio n d s).dp.tb1 } } := by
  unfold placeFolio
  split
  · exact setBuf_frame _ _ _
  · rfl

/-- A completion writes slots, completion queue, apply, buffers, port owner, and what counts completions. -/
theorem completeSlot_frame (n : Fin 8) (st : Status) (k : Nat) (s : State) :
    completeSlot n st k s = { s with
      csq := { s.csq with
        slots := (completeSlot n st k s).csq.slots, completions := (completeSlot n st k s).csq.completions
        apply := (completeSlot n st k s).csq.apply }
      dp := (completeSlot n st k s).dp
      ntc := { s.ntc with
        evPending := (completeSlot n st k s).ntc.evPending, unannounced := (completeSlot n st k s).ntc.unannounced
        timer := (completeSlot n st k s).ntc.timer } } := by
  unfold completeSlot
  dsimp only
  rw [countCompletion_frame]
  split
  · rename_i a h
    split
    · rw [releaseBuffer_frame]; rfl
    · rw [releaseBuffer_frame]; rfl
  · rw [releaseBuffer_frame]; rfl

/-- What one step of the settling pass can change. -/
abbrev SettleFrame (s t : State) : Prop :=
  t = { s with
    csq := { s.csq with slots := t.csq.slots, completions := t.csq.completions, apply := t.csq.apply }
    dp := t.dp
    ntc := { s.ntc with
      evPending := t.ntc.evPending, unannounced := t.ntc.unannounced, timer := t.ntc.timer } }

theorem SettleFrame.refl (s : State) : SettleFrame s s := rfl

theorem SettleFrame.trans {s t u : State} (h : SettleFrame s t) (g : SettleFrame t u) : SettleFrame s u := by
  rw [SettleFrame] at h g ⊢
  rw [g, h]

theorem settleSlot_frame (n : Fin 8) (s : State) : SettleFrame s (settleSlot n s) := by
  unfold settleSlot
  split
  · exact completeSlot_frame _ _ _ _
  · exact .refl s

theorem settleFold_frame (p : State → Fin 8 → State) (h : ∀ n s, SettleFrame s (p s n)) (l : List (Fin 8)) (s : State) :
    SettleFrame s (l.foldl p s) := by
  induction l generalizing s with
  | nil => exact .refl s
  | cons n l ih => exact (h n s).trans (ih _)

theorem settleSlots_frame (s : State) : SettleFrame s (settleSlots s) := by
  unfold settleSlots
  refine (settleFold_frame _ (fun n s => ?_) _ s).trans (settleFold_frame _ (fun n s => ?_) _ _)
  · split
    · exact .refl s
    · exact settleSlot_frame n s
  · split
    · exact settleSlot_frame n s
    · exact .refl s

theorem finishApply_frame (n : Fin 8) (st : Status) (k : Nat) (s : State) : SettleFrame s (finishApply n st k s) :=
  (settleSlots_frame s).trans (completeSlot_frame n st k _)

/-! ### Buffers and the port owner -/

theorem assignOne_frame (s : State) : assignOne s = { s with
    csq := { s.csq with slots := (assignOne s).csq.slots }, dp := { (assignOne s).dp with owner := s.dp.owner } } := by
  unfold assignOne
  split
  · rfl
  · split
    · dsimp only
      split
      · rw [setBuf_frame]
        rfl
      · rw [setBuf_frame]
    · rfl

theorem chooseOwner_frame (s : State) : chooseOwner s = { s with
    dp := { s.dp with owner := (chooseOwner s).dp.owner }
    ntc := { s.ntc with evPending := (chooseOwner s).ntc.evPending } } := by
  unfold chooseOwner
  split
  · rfl
  · split <;> rfl

/-! ### Reservations and faults -/

/-- What breaking and creating reservations can change. -/
abbrev RsvFrame (s t : State) : Prop :=
  t = { s with rvt := t.rvt, ntc := { s.ntc with evPending := t.ntc.evPending } }

theorem breakWhere_frame (p : Rsv → Bool) (c : BreakCause) (s : State) : RsvFrame s (breakWhere p c s) := by
  unfold RsvFrame breakWhere
  split <;> rfl

theorem createRsv_frame (r : Rsv) (s : State) : RsvFrame s (createRsv r s) := by
  unfold RsvFrame createRsv
  dsimp only
  split
  · rfl
  · split
    · rfl
    · split <;> rfl

theorem raiseFault_frame (f : FaultCode) (s : State) : raiseFault f s = { s with
    rvt := (raiseFault f s).rvt
    ntc := { s.ntc with evPending := (raiseFault f s).ntc.evPending, faults := (raiseFault f s).ntc.faults } } := by
  unfold raiseFault breakAll
  rw [breakWhere_frame]
  rfl

/-- A reservation survives a break exactly when it is not selected. -/
theorem breakWhere_entries (p : Rsv → Bool) (c : BreakCause) (s : State) :
    (breakWhere p c s).rvt.entries = s.rvt.entries.filter fun r => !p r := by
  unfold breakWhere
  split
  · rename_i h
    rw [List.getLast?_eq_none_iff, List.filter_eq_nil_iff] at h
    symm
    rw [List.filter_eq_self]
    intro r hr
    simpa using h r hr
  · rfl

/-! ### The media -/

theorem poisonFolio_frame (f : Nat) (s : State) : poisonFolio f s = { s with
    mm := { s.mm with map := (poisonFolio f s).mm.map }, rvt := (poisonFolio f s).rvt
    ntc := { s.ntc with evPending := (poisonFolio f s).ntc.evPending } } := by
  unfold poisonFolio
  dsimp only
  split
  · rfl
  · rw [breakWhere_frame]; rfl

/-- What poisoning a folio does in full (R119, R109): its entry alone, and the breaks with cause MEDIA. -/
theorem poisonFolio_spec (f : Nat) (s : State) (h : (s.mapEntry f).state ≠ .poisoned) :
    let t := poisonFolio f s
    t = breakWhere (fun r => r.overlaps f 1) .media { s with mm := { s.mm with map := t.mm.map } }
      ∧ ∀ g, t.mapEntry g = if g = f then { s.mapEntry f with state := .poisoned } else s.mapEntry g := by
  intro t
  have ht : t = breakWhere (fun r => r.overlaps f 1) .media (putEntry f { s.mapEntry f with state := .poisoned } s) :=
    if_neg h
  have hm : t.mm.map = (putEntry f { s.mapEntry f with state := .poisoned } s).mm.map := by rw [ht, breakWhere_frame]
  refine ⟨by rw [hm]; exact ht, fun g => ?_⟩
  show t.mm.map.entry g = _
  rw [hm]
  exact FolioMap.entry_put _ _ _ _

theorem poisonTarget_frame (l : Loc) (s : State) : poisonTarget l s = { s with
    mm := { s.mm with map := (poisonTarget l s).mm.map }, rvt := (poisonTarget l s).rvt
    ntc := { s.ntc with evPending := (poisonTarget l s).ntc.evPending } } := by
  unfold poisonTarget
  split
  · dsimp only
    split
    · exact poisonFolio_frame _ _
    · rfl
  · rfl

theorem clearPoison_frame (f : Nat) (s : State) :
    clearPoison f s = { s with mm := { s.mm with map := (clearPoison f s).mm.map } } := by
  unfold clearPoison
  dsimp only
  split <;> rfl

theorem offerData_frame (f : Nat) (q : Word) (l : Loc) (s : State) :
    offerData f q l s = { s with mm := { s.mm with map := (offerData f q l s).mm.map } } := by
  unfold offerData
  split <;> rfl

theorem takeReclaimOpen_frame (s : State) : takeReclaimOpen s = { s with mm := { s.mm with
    groups := (takeReclaimOpen s).mm.groups, reclaimOpen := (takeReclaimOpen s).mm.reclaimOpen } } := by
  unfold takeReclaimOpen
  split
  · split <;> rfl
  · rfl

theorem takeHostOpen_frame (s : State) : takeHostOpen s = { s with mm := { s.mm with
    groups := (takeHostOpen s).mm.groups, hostOpen := (takeHostOpen s).mm.hostOpen } } := by
  unfold takeHostOpen
  split
  · split <;> rfl
  · rfl

theorem advancePosition_frame (l : Loc) (s : State) : advancePosition l s = { s with mm := { s.mm with
    groups := (advancePosition l s).mm.groups, hostOpen := (advancePosition l s).mm.hostOpen
    reclaimOpen := (advancePosition l s).mm.reclaimOpen } } := by
  unfold advancePosition
  dsimp only
  split <;> rfl

theorem landProgram_frame (l : Loc) (p : Prog) (s : State) : landProgram l p s = { s with mm := { s.mm with
    flash := (landProgram l p s).mm.flash, groups := (landProgram l p s).mm.groups
    hostOpen := (landProgram l p s).mm.hostOpen, reclaimOpen := (landProgram l p s).mm.reclaimOpen, port := none } } := by
  unfold landProgram
  rw [advancePosition_frame]
  rfl

theorem tearProgram_frame (l : Loc) (p : Prog) (s : State) : tearProgram l p s = { s with mm := { s.mm with
    flash := (tearProgram l p s).mm.flash, groups := (tearProgram l p s).mm.groups
    hostOpen := (tearProgram l p s).mm.hostOpen, reclaimOpen := (tearProgram l p s).mm.reclaimOpen, port := none } } := by
  unfold tearProgram
  rw [advancePosition_frame]
  rfl

theorem reserveFell_frame (s : State) : reserveFell s = { s with
    mm := { s.mm with readOnly := (reserveFell s).mm.readOnly }
    ntc := { s.ntc with evPending := (reserveFell s).ntc.evPending } } := by
  unfold reserveFell
  dsimp only
  split <;> split <;> rfl

/-- What the thresholds do in full (R133, R134): SPARE at 24 or fewer, read-only mode and RDONLY at 4 or fewer. -/
theorem reserveFell_spec (s : State) : reserveFell s = { s with
    mm := { s.mm with readOnly := s.mm.readOnly || decide (s.reserve ≤ 4) }
    ntc := { s.ntc with evPending := s.ntc.evPending ||| (if s.reserve ≤ 24 then 32 else 0)
      ||| if s.reserve ≤ 4 ∧ s.mm.readOnly = false then 64 else 0 } } := by
  have hr : ∀ u : State, (setEvent .spare u).reserve = u.reserve := fun _ => rfl
  have hm : s.mm.readOnly = true → { s.mm with readOnly := true } = s.mm := fun h => by rw [← h]
  have e1 : Config.spareThreshold = 24 := rfl
  have e2 : Config.readOnlyThreshold = 4 := rfl
  unfold reserveFell
  dsimp only
  rw [e1, e2]
  by_cases h1 : s.reserve ≤ 24
  · rw [if_pos h1, if_pos h1, hr]
    by_cases h2 : s.reserve ≤ 4
    · cases h3 : s.mm.readOnly
      · rw [if_pos (by simp [setEvent, h2, h3]), if_pos ⟨h2, rfl⟩]
        simp [h2]
        rfl
      · rw [if_neg (by simp [setEvent, h3]), if_neg (by simp)]
        simp [hm h3]
        rfl
    · rw [if_neg (by simp [h2]), if_neg (by simp [h2])]
      simp [h2]
      rfl
  · have h2 : ¬s.reserve ≤ 4 := by omega
    rw [if_neg h1, if_neg h1, if_neg (by simp [h2]), if_neg (by simp [h2])]
    simp [h2]

theorem addDefect_frame (g : Nat) (o : Origin) (s : State) :
    addDefect g o s = { s with mm := { s.mm with defects := (addDefect g o s).mm.defects } } := by
  unfold addDefect
  split <;> rfl

theorem retireGroup_frame (g : Nat) (o : Origin) (s : State) : retireGroup g o s = { s with
    mm := { s.mm with groups := (retireGroup g o s).mm.groups, defects := (retireGroup g o s).mm.defects }
    ntc := { s.ntc with evPending := (retireGroup g o s).ntc.evPending } } := by
  unfold retireGroup
  rw [addDefect_frame]
  rfl

theorem retiringGroup_frame (g : Nat) (o : Origin) (s : State) : retiringGroup g o s = { s with
    mm := { s.mm with
      groups := (retiringGroup g o s).mm.groups, hostOpen := (retiringGroup g o s).mm.hostOpen
      reclaimOpen := (retiringGroup g o s).mm.reclaimOpen, readOnly := (retiringGroup g o s).mm.readOnly }
    ntc := { s.ntc with evPending := (retiringGroup g o s).ntc.evPending } } := by
  have h := reserveFell_frame
    (setEvent .media (vacateRole g (putGroup g { s.group g with state := .retiring, origin := some o } s)))
  unfold retiringGroup
  generalize reserveFell _ = t at h ⊢
  rw [h]
  rfl

theorem failProgram_frame (o : Origin) (l : Loc) (p : Prog) (s : State) : failProgram o l p s = { s with
    mm := { s.mm with
      flash := (failProgram o l p s).mm.flash, groups := (failProgram o l p s).mm.groups
      hostOpen := (failProgram o l p s).mm.hostOpen, reclaimOpen := (failProgram o l p s).mm.reclaimOpen
      readOnly := (failProgram o l p s).mm.readOnly, port := none }
    ntc := { s.ntc with evPending := (failProgram o l p s).ntc.evPending } } := by
  unfold failProgram
  dsimp only
  generalize hu : putGroup _ _ (putCell l p false (clearPort s)) = u
  have h := retiringGroup_frame (groupOf l) o u
  generalize retiringGroup (groupOf l) o u = t at h ⊢
  rw [h, ← hu]
  rfl

/-- The program of a removed command is torn, any other one fails (R129, R131, R178). -/
theorem programLost_eq (o : Origin) (q : Requester) (l : Loc) (p : Prog) (s : State) :
    (q = .orphan → programLost o q l p s = tearProgram l p s)
      ∧ (q ≠ .orphan → programLost o q l p s = failProgram o l p s) :=
  ⟨fun h => if_pos h, fun h => if_neg h⟩

/-! ### Lines -/

theorem enlist_frame (l : Fin 32) (s : State) :
    enlist l s = { s with fc := { s.fc with dirtyList := (enlist l s).fc.dirtyList } } := by
  unfold enlist
  split <;> rfl

theorem givePartial_frame (m : Option (Fin 8)) (s : State) :
    givePartial m s = { s with csq := { s.csq with slots := (givePartial m s).csq.slots } } := by
  unfold givePartial
  split <;> rfl

theorem invalidate_frame (l : Fin 32) (s : State) : invalidate l s = { s with
    csq := { s.csq with slots := (invalidate l s).csq.slots }
    fc := { s.fc with lines := (invalidate l s).fc.lines, dirtyList := (invalidate l s).fc.dirtyList } } := rfl

theorem writeClean_frame (l : Fin 32) (f : Nat) (d : FolioData) (s : State) : writeClean l f d s = { s with
    csq := { s.csq with slots := (writeClean l f d s).csq.slots }
    fc := { s.fc with lines := (writeClean l f d s).fc.lines, dirtyList := (writeClean l f d s).fc.dirtyList } } := by
  unfold writeClean
  dsimp only
  rw [givePartial_frame]
  rfl

theorem cacheUpdate_frame (f : Nat) (d : FolioData) (s : State) : cacheUpdate f d s = { s with
    csq := { s.csq with slots := (cacheUpdate f d s).csq.slots }
    fc := { s.fc with
      lines := (cacheUpdate f d s).fc.lines, dirtyList := (cacheUpdate f d s).fc.dirtyList
      lru := (cacheUpdate f d s).fc.lru } } := by
  unfold cacheUpdate
  split
  · rw [writeClean_frame]; rfl
  · split
    · rw [writeClean_frame]; rfl
    · rfl

theorem voidTicket_frame (l : Fin 32) (s : State) :
    voidTicket l s = { s with fc := { s.fc with lines := (voidTicket l s).fc.lines } } := by
  unfold voidTicket
  split
  · split <;> rfl
  · rfl

/-! ### Power and the evaluations of a unit's end -/

theorem wakeCause_frame (s : State) : wakeCause s = { s with
    pwr := { s.pwr with state := (wakeCause s).pwr.state, powerUp := (wakeCause s).pwr.powerUp } } := by
  unfold wakeCause
  split <;> rfl

theorem settleMediaPower_frame (s : State) : settleMediaPower s = { s with
    pwr := { (settleMediaPower s).pwr with dozeDelay := s.pwr.dozeDelay, intent := s.pwr.intent }
    ntc := { s.ntc with evPending := (settleMediaPower s).ntc.evPending } } := by
  unfold settleMediaPower
  split
  · rfl
  · split <;> first | rfl | (split <;> rfl)

theorem evalMedia_frame (s : State) : evalMedia s = { s with mm := { s.mm with
    groups := (evalMedia s).mm.groups, hostOpen := (evalMedia s).mm.hostOpen
    reclaimOpen := (evalMedia s).mm.reclaimOpen, commitNotes := (evalMedia s).mm.commitNotes
    reclaimFill := (evalMedia s).mm.reclaimFill } } := by
  unfold evalMedia
  split
  · rfl
  · rw [takeHostOpen_frame, takeReclaimOpen_frame]; rfl

theorem releaseRetry_frame (s : State) :
    releaseRetry s = { s with csq := { s.csq with apply := (releaseRetry s).csq.apply } } := by
  unfold releaseRetry
  split
  · split <;> rfl
  · rfl

/-! ### Slots and lines -/

@[simp] theorem slot_setSlot_self (n : Fin 8) (x : Slot) (s : State) : (setSlot n x s).slot n = x := by
  simp [State.slot, setSlot]

theorem slot_setSlot_ne {n m : Fin 8} (x : Slot) (s : State) (h : m ≠ n) : (setSlot n x s).slot m = s.slot m := by
  simp only [State.slot, setSlot, Fin.getElem_fin]
  exact Vector.getElem_set_ne _ _ (fun e => h (Fin.ext e.symm))

@[simp] theorem slot_mapSlots (f : Slot → Slot) (n : Fin 8) (s : State) : (mapSlots f s).slot n = f (s.slot n) := by
  simp [State.slot, mapSlots, vecMap]

@[simp] theorem line_setLine_self (l : Fin 32) (x : Line) (s : State) : (setLine l x s).line l = x := by
  simp [State.line, setLine]

theorem line_setLine_ne {l m : Fin 32} (x : Line) (s : State) (h : m ≠ l) : (setLine l x s).line m = s.line m := by
  simp only [State.line, setLine, Fin.getElem_fin]
  exact Vector.getElem_set_ne _ _ (fun e => h (Fin.ext e.symm))

end Sys2Proof.Machine
end

