-- ==== Sys2Proof/Laws/PerInstr.lean ====
section
/-!
SUPPORT. The family `WordsHaveOneRow` over the commands: a well-formed command that is a write word at an address stands
in the one row that the table has for that address. REGISTER_WRITE is the row only of the addresses without a row of their own.
-/

namespace Sys2Proof.Laws.WordsHaveOneRow

/-- A well-formed write word is REGISTER_WRITE exactly where its address has no row of its own. -/
def Statement (i : Instr) : Prop :=
  ∀ a, i.writeRow = some a → i.wellFormed = true →
    ((∃ w, i = .registerWrite a w) ↔ ¬(ownRowAddrs.contains a = true ∨ isDataPortAddr a = true))

theorem frameTypeDecode (x : Byte) (y : WordAddr) (z : Byte) : Statement (.frameTypeDecode x y z) := by
  intro a h
  cases h

theorem statePoll : Statement .statePoll := by
  intro a h
  cases h

theorem readWordCapture (x : Bool) : Statement (.readWordCapture x) := by
  intro a h
  cases h

theorem frameEnd : Statement .frameEnd := by
  intro a h
  cases h

theorem registerWrite (x : WordAddr) (y : Word) : Statement (.registerWrite x y) := by
  intro a h hw
  cases h
  simp only [Instr.wellFormed, Bool.and_eq_true, Bool.not_eq_true'] at hw
  refine iff_of_true ⟨y, rfl⟩ ?_
  rintro (h | h)
  · rw [hw.1] at h
    cases h
  · rw [hw.2] at h
    cases h

theorem rejectLogClear (x : Word) : Statement (.rejectLogClear x) := by
  intro a h _
  cases h
  simp only [reduceCtorEq, exists_false, false_iff, not_not]
  decide

theorem cdWrite (x : Fin 4) (y : Word) : Statement (.cdWrite x y) := by
  intro a h _
  cases h
  simp only [reduceCtorEq, exists_false, false_iff, not_not]
  have own : ∀ n : Fin 4, ownRowAddrs.contains (BitVec.ofNat 16 (8 + n.val)) = true := by decide
  exact .inl (own x)

theorem submit (x : Word) : Statement (.submit x) := by
  intro a h _
  cases h
  simp only [reduceCtorEq, exists_false, false_iff, not_not]
  decide

theorem abort (x : Word) : Statement (.abort x) := by
  intro a h _
  cases h
  simp only [reduceCtorEq, exists_false, false_iff, not_not]
  decide

theorem retire (x : Word) : Statement (.retire x) := by
  intro a h _
  cases h
  simp only [reduceCtorEq, exists_false, false_iff, not_not]
  decide

theorem dataPortWrite (x : WordAddr) (y : Word) : Statement (.dataPortWrite x y) := by
  intro a h hw
  replace hw : isDataPortAddr x = true := hw
  simp only [Instr.writeRow, hw, if_true, Option.some.injEq] at h
  simp [← h, hw]

theorem dataPortRead : Statement .dataPortRead := by
  intro a h
  cases h

theorem read : Statement .read := by
  intro a h
  cases h

theorem writeCached (x : Bool) : Statement (.writeCached x) := by
  intro a h
  cases h

theorem writeThrough (x : Bool) : Statement (.writeThrough x) := by
  intro a h
  cases h

theorem writeAtomic (x : Bool) : Statement (.writeAtomic x) := by
  intro a h
  cases h

theorem trim : Statement .trim := by
  intro a h
  cases h

theorem prefetch : Statement .prefetch := by
  intro a h
  cases h

theorem discard : Statement .discard := by
  intro a h
  cases h

theorem clean : Statement .clean := by
  intro a h
  cases h

theorem flush : Statement .flush := by
  intro a h
  cases h

theorem purge : Statement .purge := by
  intro a h
  cases h

theorem sync : Statement .sync := by
  intro a h
  cases h

theorem describe : Statement .describe := by
  intro a h
  cases h

theorem healthCounters : Statement .healthCounters := by
  intro a h
  cases h

theorem healthDefectList : Statement .healthDefectList := by
  intro a h
  cases h

theorem sleep : Statement .sleep := by
  intro a h
  cases h

theorem eraseAll : Statement .eraseAll := by
  intro a h
  cases h

theorem applyStep (x : Bool) : Statement (.applyStep x) := by
  intro a h
  cases h

theorem lineWaitEnd : Statement .lineWaitEnd := by
  intro a h
  cases h

theorem reclaimForegroundEnd : Statement .reclaimForegroundEnd := by
  intro a h
  cases h

theorem mediaPortGrant : Statement .mediaPortGrant := by
  intro a h
  cases h

theorem mediaReadComplete (x : ReadResult) : Statement (.mediaReadComplete x) := by
  intro a h
  cases h

theorem mediaProgramComplete : Statement .mediaProgramComplete := by
  intro a h
  cases h

theorem programFail : Statement .programFail := by
  intro a h
  cases h

theorem wbeCapture (x : Bool) : Statement (.wbeCapture x) := by
  intro a h
  cases h

theorem ticketComplete : Statement .ticketComplete := by
  intro a h
  cases h

theorem sleepCompletion : Statement .sleepCompletion := by
  intro a h
  cases h

theorem dozeEntry : Statement .dozeEntry := by
  intro a h
  cases h

theorem mediaReady : Statement .mediaReady := by
  intro a h
  cases h

theorem wake (x : Word) : Statement (.wake x) := by
  intro a h _
  cases h
  simp only [reduceCtorEq, exists_false, false_iff, not_not]
  decide

theorem nenWrite (x : Word) : Statement (.nenWrite x) := by
  intro a h _
  cases h
  simp only [reduceCtorEq, exists_false, false_iff, not_not]
  decide

theorem controllerReset (x : Word) : Statement (.controllerReset x) := by
  intro a h _
  cases h
  simp only [reduceCtorEq, exists_false, false_iff, not_not]
  decide

theorem portReset (x : Word) : Statement (.portReset x) := by
  intro a h
  cases h

theorem portResetRelease (x : Word) : Statement (.portResetRelease x) := by
  intro a h
  cases h

theorem por : Statement .por := by
  intro a h
  cases h

theorem porEnd : Statement .porEnd := by
  intro a h
  cases h

theorem pinReset : Statement .pinReset := by
  intro a h
  cases h

theorem pinResetRelease : Statement .pinResetRelease := by
  intro a h
  cases h

theorem mountMetadataReadComplete (x : Bool) : Statement (.mountMetadataReadComplete x) := by
  intro a h
  cases h

theorem mountReeraseComplete (x : Bool) : Statement (.mountReeraseComplete x) := by
  intro a h
  cases h

theorem mountEnd : Statement .mountEnd := by
  intro a h
  cases h

theorem tick (x y : Option Nat) : Statement (.tick x y) := by
  intro a h
  cases h

theorem stallLimit (x y : Option Nat) : Statement (.stallLimit x y) := by
  intro a h
  cases h

theorem powerupStall (x y : Option Nat) : Statement (.powerupStall x y) := by
  intro a h
  cases h

theorem quietEnd (x y : Option Nat) : Statement (.quietEnd x y) := by
  intro a h
  cases h

theorem coalesceTimeout (x y : Option Nat) : Statement (.coalesceTimeout x y) := by
  intro a h
  cases h

theorem dozeIntentArm (x y : Option Nat) : Statement (.dozeIntentArm x y) := by
  intro a h
  cases h

theorem evPendingClear (x : Word) : Statement (.evPendingClear x) := by
  intro a h _
  cases h
  simp only [reduceCtorEq, exists_false, false_iff, not_not]
  decide

theorem faultPendingClear (x : Word) : Statement (.faultPendingClear x) := by
  intro a h _
  cases h
  simp only [reduceCtorEq, exists_false, false_iff, not_not]
  decide

theorem claim : Statement .claim := by
  intro a h
  cases h

theorem endWrite (x : Word) : Statement (.endWrite x) := by
  intro a h _
  cases h
  simp only [reduceCtorEq, exists_false, false_iff, not_not]
  decide

theorem serviceWrite (x : Word) : Statement (.serviceWrite x) := by
  intro a h _
  cases h
  simp only [reduceCtorEq, exists_false, false_iff, not_not]
  decide

theorem quietWrite (x : Word) : Statement (.quietWrite x) := by
  intro a h _
  cases h
  simp only [reduceCtorEq, exists_false, false_iff, not_not]
  decide

theorem coalesceWrite (x : Word) : Statement (.coalesceWrite x) := by
  intro a h _
  cases h
  simp only [reduceCtorEq, exists_false, false_iff, not_not]
  decide

theorem cachePolicyWrite (x : Word) : Statement (.cachePolicyWrite x) := by
  intro a h _
  cases h
  simp only [reduceCtorEq, exists_false, false_iff, not_not]
  decide

theorem dozeDelayWrite (x : Word) : Statement (.dozeDelayWrite x) := by
  intro a h _
  cases h
  simp only [reduceCtorEq, exists_false, false_iff, not_not]
  decide

theorem reclaimVictimChoice : Statement .reclaimVictimChoice := by
  intro a h
  cases h

theorem reclaimCopyComplete : Statement .reclaimCopyComplete := by
  intro a h
  cases h

theorem reclaimEraseComplete (x : Bool) : Statement (.reclaimEraseComplete x) := by
  intro a h
  cases h

theorem relocationCopyComplete : Statement .relocationCopyComplete := by
  intro a h
  cases h

theorem frameStart : Statement .frameStart := by
  intro a h
  cases h

end Sys2Proof.Laws.WordsHaveOneRow
end

