-- ==== Sys2Proof/Laws/Unit.lean ====
section
/-!
SUPPORT. How a command reaches its effect: nothing is performed first in a state where nothing is due, the row of a due step
performs that step, and a write word that the port takes acts on the state in which it is counted. Then what a collision, a
stall and a metadata error come to.
-/

namespace Sys2Proof.Machine

theorem settleDue_atRest {s : State} (h : s.AtRest) (n : Nat) : settleDue n s = s := by
  cases n <;> simp [settleDue, h]

/-- In a state in which nothing is due, nothing is performed before the command. -/
theorem caughtUp_atRest {s : State} (h : s.AtRest) : caughtUp s = s := settleDue_atRest h 24

theorem settleUntil_selected {p : State → Due → Bool} {s : State} {d : Due} (h : s.due = some d) (hp : p s d = true) (n : Nat) :
    settleUntil p n s = s := by
  cases n <;> simp [settleUntil, h, hp]

theorem settleUntil_atRest (p : State → Due → Bool) {s : State} (h : s.AtRest) (n : Nat) : settleUntil p n s = s := by
  cases n <;> simp [settleUntil, h]

/-- The row of the step that is due performs it. -/
theorem dueRow_selected {p : State → Due → Bool} {s : State} {d : Due} (bad : Bool) (h : s.due = some d) (hp : p s d = true) :
    dueRow p bad s = perform d bad s := by
  simp [dueRow, settleUntil_selected h hp, performIf, h, hp]

/-- The row of a due step changes nothing where nothing is due. -/
theorem dueRow_atRest (p : State → Due → Bool) (bad : Bool) {s : State} (h : s.AtRest) : dueRow p bad s = s := by
  simp [dueRow, settleUntil_atRest p h, performIf, h]

/-- The start that is due, by its row. -/
theorem dueRow_starts {s : State} {n : Fin 8} {k : StartKind} (bad : Bool) (h : s.Starts n k) :
    dueRow (startsKind k) bad s = endUnit (startSlot n bad s) := by
  rw [dueRow_selected (d := .start n) bad h.1 (by simp [startsKind, h.2])]
  rfl

/-- A start is due only where no apply is in progress. -/
theorem apply_none_of_due_start {s : State} {n : Fin 8} (h : s.due = some (.start n)) : s.csq.apply = none := by
  unfold State.due at h
  split at h
  · repeat' split at h
    all_goals cases h
  · assumption

@[simp] theorem counted_held (s : State) : s.counted.held = s.held := rfl

/-- A write word that the port takes. -/
theorem writeAt_serves {addr : WordAddr} {s : State} (f : State → State) (h : s.Serves addr) :
    writeAt addr f s = endUnit (f s.counted) := by
  obtain ⟨⟨-, h1⟩, h2⟩ := h
  have h3 : State.held { s with hpi := s.hpi.advance } = false := h2
  simp [writeAt, h1, h3, State.counted]

/-- A write word at PORT_CONFIG acts in RESET_HELD as well. -/
theorem writeAt_portConfig {s : State} (f : State → State) (h : s.hpi.acceptsWrite 0x02 = true) :
    writeAt 0x02 f s = endUnit (f s.counted) := by
  unfold writeAt
  rw [if_pos h]
  simp [State.counted]

/-- A word that the frame cannot complete changes nothing. -/
theorem writeAt_refused {addr : WordAddr} {s : State} (f : State → State) (h : s.hpi.acceptsWrite addr = false) :
    writeAt addr f s = s := by
  simp [writeAt, h]

/-! ### Collisions and stalls -/

/-- F3 collides exactly with F4 (R163). -/
theorem collidesWith_f3 (s : State) : s.collidesWith .f3 = if s.ntc.outstanding .f4 = true then some .f4 else none := by
  unfold State.collidesWith Ntc.highestHard
  cases s.ntc.outstanding .f4 <;> cases s.ntc.outstanding .f3 <;> cases s.ntc.outstanding .f2 <;> rfl

/-- F2 collides with F4 and F3 (R163). -/
theorem collidesWith_f2 (s : State) : s.collidesWith .f2 =
    if s.ntc.outstanding .f4 = true then some .f4 else if s.ntc.outstanding .f3 = true then some .f3 else none := by
  unfold State.collidesWith Ntc.highestHard
  cases s.ntc.outstanding .f4 <;> cases s.ntc.outstanding .f3 <;> cases s.ntc.outstanding .f2 <;> rfl

/-- What a stalled operation leaves (R131, R164): its treatment and F3, with the events of the treatment where F3 collides. -/
theorem stallOp_eq (op : PortOp) (s : State) : stallOp op s =
    if (abandon op s).ntc.outstanding .f4 = true then
      { raiseStall (abandon op s) with ntc := { (raiseStall (abandon op s)).ntc with
          evPending := (raiseStall (abandon op s)).ntc.evPending ||| s.abandonEvents op } }
    else raiseStall (abandon op s) := by
  unfold stallOp
  dsimp only
  rw [collidesWith_f3]
  generalize raiseStall (abandon op s) = u
  cases (abandon op s).ntc.outstanding .f4 <;> rfl

/-! ### Metadata errors -/

/-- A metadata error changes nothing but the flash (R143). -/
theorem loseMetadata_frame (loc : Loc) (s : State) :
    loseMetadata loc s = { s with mm := { s.mm with flash := (loseMetadata loc s).mm.flash } } := by
  unfold loseMetadata
  split <;> rfl

/-- It marks its own position, where that is programmed, and no other. -/
@[simp] theorem cell_loseMetadata (loc i : Loc) (s : State) :
    (loseMetadata loc s).cell i = if i = loc then (s.cell i).map fun c => { c with metaLost := true } else s.cell i := by
  unfold loseMetadata
  split
  · rename_i c hc
    split
    · subst_vars
      rw [hc]
      exact sparseGet_sparsePut_self _ _ _
    · rename_i h
      exact sparseGet_sparsePut_ne _ _ h
  · rename_i hc
    split
    · subst_vars
      rw [hc]
      rfl
    · rfl

/-- The flash keeps its canonical form. -/
theorem loseMetadata_flash_wf (loc : Loc) (s : State) (h : sparseWf s.mm.flash = true) :
    sparseWf (loseMetadata loc s).mm.flash = true := by
  unfold loseMetadata
  split
  · exact sparsePut_wf _ _ h
  · exact h

/-- Marking a list of positions marks each of them that is programmed, and changes nothing but the flash. -/
theorem foldl_loseMetadata (ps : List (Loc × ScanClass)) (s : State) :
    let t := ps.foldl (fun s p => loseMetadata p.1 s) s
    t = { s with mm := { s.mm with flash := t.mm.flash } } ∧ (sparseWf s.mm.flash = true → sparseWf t.mm.flash = true)
      ∧ ∀ l, t.cell l = if l ∈ ps.map (·.1) then (s.cell l).map fun c => { c with metaLost := true } else s.cell l := by
  induction ps generalizing s with
  | nil => exact ⟨rfl, id, fun l => rfl⟩
  | cons p ps ih =>
    obtain ⟨h, hw, hc⟩ := ih (loseMetadata p.1 s)
    refine ⟨?_, fun hs => hw (loseMetadata_flash_wf _ _ hs), fun l => ?_⟩
    · rw [List.foldl_cons, h, loseMetadata_frame p.1 s]
    · rw [List.foldl_cons, hc, cell_loseMetadata, List.map_cons]
      by_cases hl : l = p.1
      · subst hl
        cases s.cell p.1 <;> simp
      · simp only [List.mem_cons, hl, false_or, if_false]

/-- What the end of a mount does to the flash (R143): every metadata error found is marked. -/
theorem loseErrors_spec (m : Mount) (s : State) :
    loseErrors m s = { s with mm := { s.mm with flash := (loseErrors m s).mm.flash } }
      ∧ (sparseWf s.mm.flash = true → sparseWf (loseErrors m s).mm.flash = true)
      ∧ ∀ l, (loseErrors m s).cell l = if (l, .metadataError) ∈ m.scanned then
          (s.cell l).map fun c => { c with metaLost := true } else s.cell l := by
  obtain ⟨h, hw, hc⟩ := foldl_loseMetadata (m.scanned.filter fun p => p.2 == .metadataError) s
  exact ⟨h, hw, fun l => (hc l).trans (by simp)⟩

end Sys2Proof.Machine
end

