-- ==== Sys2Proof/Laws/Words.lean ====
section
/-!
SUPPORT. What the helpers over words compute, said in arithmetic: fields, reserved bits, and the command codes.
-/

namespace Sys2Proof.Machine

theorem field_eq_div_mod (w : Word) (lo len : Nat) : field w lo len = w.toNat / 2 ^ lo % 2 ^ len := by
  simp [field, BitVec.extractLsb'_toNat, Nat.shiftRight_eq_div_pow]

/-- Bit `i` of a register word is a bit of one of its fields. -/
theorem layout_getLsbD (l : List (Nat × Nat × Nat)) (i : Nat) :
    (layout l).getLsbD i =
      (decide (i < 32) && l.any fun f => decide (f.2.1 ≤ i ∧ i < f.2.1 + f.2.2) && f.1.testBit (i - f.2.1)) := by
  induction l with
  | nil => simp [layout]
  | cons f l ih =>
    have e : layout (f :: l) = BitVec.ofNat 32 (f.1 % 2 ^ f.2.2) <<< f.2.1 ||| layout l := rfl
    rw [e, BitVec.getLsbD_or, ih, BitVec.getLsbD_shiftLeft, BitVec.getLsbD_ofNat, Nat.testBit_mod_two_pow, List.any_cons]
    have key : (decide (i < 32) && !decide (i < f.2.1)
          && (decide (i - f.2.1 < 32) && (decide (i - f.2.1 < f.2.2) && f.1.testBit (i - f.2.1)))) =
        (decide (i < 32) && (decide (f.2.1 ≤ i ∧ i < f.2.1 + f.2.2) && f.1.testBit (i - f.2.1))) := by
      generalize f.1.testBit (i - f.2.1) = b
      rw [Bool.eq_iff_iff]
      simp only [Bool.and_eq_true, Bool.not_eq_true', decide_eq_true_eq, decide_eq_false_iff_not]
      constructor
      · rintro ⟨⟨h, h1⟩, -, h2, hb⟩
        exact ⟨h, ⟨by omega, by omega⟩, hb⟩
      · rintro ⟨h, ⟨h1, h2⟩, hb⟩
        exact ⟨⟨h, by omega⟩, by omega, by omega, hb⟩
    rw [key, ← Bool.and_or_distrib_left]

/-- A register word shows the fields it is made of, when no two of them overlap and none ends above bit 31. -/
theorem layout_shows (l : List (Nat × Nat × Nat)) (inside : ∀ f ∈ l, f.2.1 + f.2.2 ≤ 32)
    (apart : ∀ f ∈ l, ∀ g ∈ l, f = g ∨ f.2.1 + f.2.2 ≤ g.2.1 ∨ g.2.1 + g.2.2 ≤ f.2.1) : Shows (layout l) l := by
  constructor
  · intro f hf
    apply Nat.eq_of_testBit_eq
    intro i
    rw [field, BitVec.testBit_toNat, BitVec.getLsbD_extractLsb', layout_getLsbD, Nat.testBit_mod_two_pow]
    by_cases hi : i < f.2.2
    · have h32 : f.2.1 + i < 32 := by have := inside f hf; omega
      simp only [hi, h32, decide_true, Bool.true_and]
      rw [Bool.eq_iff_iff, List.any_eq_true]
      constructor
      · rintro ⟨g, hg, hb⟩
        simp only [Bool.and_eq_true, decide_eq_true_eq] at hb
        obtain rfl | h | h := apart f hf g hg
        · simpa using hb.2
        · omega
        · omega
      · intro hb
        exact ⟨f, hf, by simp [hb, hi]⟩
    · simp [hi]
  · intro i hi
    rw [layout_getLsbD, Bool.and_eq_false_iff]
    right
    rw [Bool.eq_false_iff, ne_eq, List.any_eq_true]
    rintro ⟨g, hg, hb⟩
    simp only [Bool.and_eq_true, decide_eq_true_eq] at hb
    have := hi g hg
    omega

theorem clearIn_iff (m w : Word) : clearIn m w = true ↔ w &&& m = 0 := by simp [clearIn]

/-- A word is below `2 ^ n` when the bits from `n` up are 0. -/
theorem toNat_lt_two_pow_iff (w : Word) (n : Nat) : w.toNat < 2 ^ n ↔ ∀ i, n ≤ i → w.getLsbD i = false := by
  constructor
  · intro h i hi
    rw [BitVec.getLsbD]
    exact Nat.testBit_lt_two_pow (Nat.lt_of_lt_of_le h (Nat.pow_le_pow_right (by decide) hi))
  · intro h
    exact Nat.lt_pow_two_of_testBit _ fun i hi => h i hi

/-- Reserved bits that are all the bits from `n` up are 0 exactly below `2 ^ n`. -/
theorem clearIn_above (w : Word) (n : Nat) : clearIn (BitVec.allOnes 32 <<< n) w = true ↔ w.toNat < 2 ^ n := by
  rw [clearIn_iff, toNat_lt_two_pow_iff]
  constructor
  · intro h i hi
    by_cases hi' : i < 32
    · have := congrArg (fun v => v.getLsbD i) h
      rw [BitVec.getLsbD_and, BitVec.getLsbD_shiftLeft, BitVec.getLsbD_allOnes] at this
      simpa [hi', hi, Nat.not_lt.2 hi, show i - n < 32 by omega] using this
    · exact BitVec.getLsbD_of_ge _ _ (by omega)
  · intro h
    ext i hi
    by_cases hn : n ≤ i
    · simp [← BitVec.getLsbD_eq_getElem, h i hn]
    · simp [BitVec.getElem_shiftLeft, show i < n by omega]

theorem cmdOfCode_code (c : Cmd) : cmdOfCode c.code = some c := by cases c <;> rfl

theorem cmdOfCode_eq_some {k : Nat} {c : Cmd} (h : cmdOfCode k = some c) : k = c.code := by
  unfold cmdOfCode at h
  split at h <;> first | (cases h; rfl) | cases h

end Sys2Proof.Machine
end

