-- ==== Sys2Proof/Tests/Slice0.lean ====
section
/-!
SUPPORT. Tests. First the well-formedness smoke tests; then, for each statement with hypotheses, states and operands that meet
them, clause by clause (`test_witness_<name of the statement>`, one theorem or several); then one small test for a
command, whose expected value is worked out from the rule named above it.
-/

namespace Sys2Proof.Tests

open Sys2Proof Sys2Proof.Machine

set_option Elab.async false

/-! ### Well-formedness, decoding -/

theorem test_wf_register_write_has_own_row :
    Instr.wellFormed (.registerWrite 0x0C 0) = false ∧ Instr.wellFormed (.registerWrite 0x21 0) = true := by decide

theorem test_wf_register_write_is_no_data_port :
    Instr.wellFormed (.registerWrite 0x100 0) = false ∧ Instr.wellFormed (.registerWrite 0x200 0) = true := by decide

theorem test_wf_data_port_address :
    Instr.wellFormed (.dataPortWrite 0x18 0) = false ∧ Instr.wellFormed (.dataPortWrite 0x1FF 0) = true := by decide

theorem test_wf_corrected_bits :
    Instr.wellFormed (.mediaReadComplete (.corrected 41)) = false
      ∧ Instr.wellFormed (.mediaReadComplete (.corrected 0)) = false
      ∧ Instr.wellFormed (.mediaReadComplete (.corrected 40)) = true := by decide

theorem test_wf_host_control_rows :
    Instr.wellFormed (.wake 4) = false ∧ Instr.wellFormed (.nenWrite 2) = false
      ∧ Instr.wellFormed (.controllerReset 3) = false ∧ Instr.wellFormed (.controllerReset 6) = true := by decide

theorem test_wf_port_config_rows :
    Instr.wellFormed (.portReset 0) = false ∧ Instr.wellFormed (.portResetRelease 1) = false := by decide

theorem test_wf_bad_word :
    Instr.wellFormed (.tick (some 4096) none) = false ∧ Instr.wellFormed (.stallLimit none (some 4096)) = false
      ∧ Instr.wellFormed (.powerupStall (some 4096) none) = false
      ∧ Instr.wellFormed (.quietEnd none (some 4096)) = false
      ∧ Instr.wellFormed (.coalesceTimeout (some 4096) none) = false
      ∧ Instr.wellFormed (.dozeIntentArm none (some 4096)) = false
      ∧ Instr.wellFormed (.tick (some 4095) none) = true := by decide

/-- No row of the table gives bits. -/
theorem test_decode_spells_nothing (nbits w : Nat) : decodeTableWord nbits w = none := rfl

/-! ### States -/

/-- An opened group. -/
def opened : Group := { Group.fresh with state := .opened }

/-- The block at rest, mounted on an erased flash. -/
def base : State :=
  { State.reset with
    mount := none
    mm := { Media.blank with groups := [(0, opened), (1, opened)], reclaimOpen := some 0, hostOpen := some 1 }
    pwr := { Pwr.reset with state := .idle } }

/-- The state a command leaves. -/
def after (c : Instr) (s : State) : Option State :=
  match exec c s with
  | .next t => some t
  | .fault _ => none
  | .refused _ => none

/-- A WRITE BURST frame whose next word, of `due`, goes to `a`. -/
def writing (a : WordAddr) (s : State) : State :=
  { s with hpi := { s.hpi with
      selected := true, phase := .header, frame := some .writeBurst, nextAddr := a, wordsDue := 1, sdo := .low } }

/-- A READ BURST frame whose next word is at `a`. -/
def reading (a : WordAddr) (s : State) : State :=
  { s with hpi := { s.hpi with
      selected := true, phase := .header, frame := some .readBurst, nextAddr := a, wordsDue := 4, sdo := .low } }

/-- The same in the middle of its frame. -/
def readingOn (a : WordAddr) (s : State) : State :=
  { s with hpi := { (reading a s).hpi with phase := .data } }

/-- The same after its last word. -/
def pastLast (s : State) : State := { s with hpi := { (readingOn 0x04 s).hpi with wordsDue := 0, sdo := .bits 5 } }

/-- A word of the frame that is captured and owes `e`. -/
def owing (a : WordAddr) (e : ReadEffect) (s : State) : State :=
  { s with hpi := { (readingOn a s).hpi with captured := some { addr := a, value := 0, effect := e } } }

/-- RESET_HELD. -/
def held : State :=
  { base with rst := { base.rst with portReset := true }, pwr := { base.pwr with state := .resetHeld } }

/-- A descriptor. -/
def desc (c : Cmd) (folio count : Nat) : Desc := { Slot.free.desc with cmd := c, folio := folio, count := count }

/-- A slot with a command. -/
def slotOf (st : SlotState) (d : Desc) : Slot := { Slot.free with state := st, desc := d }

/-- `s` with a record in slot `n`, the youngest of the run queue. -/
def withSlot (n : Fin 8) (x : Slot) (s : State) : State :=
  { s with csq := { s.csq with slots := s.csq.slots.set n.val x n.isLt, runQueue := s.csq.runQueue ++ [n] } }

/-- `s` with `words` in TB0, held by slot `n`. -/
def withBuf (n : Fin 8) (words : List Word) (consumed : Nat) (s : State) : State :=
  { s with dp := { s.dp with tb0 := { holder := some n, words := words, consumed := consumed } } }

/-- `s` with slot `n` as the port owner. -/
def owned (n : Fin 8) (s : State) : State := { s with dp := { s.dp with owner := some n } }

/-- `s` with a record in the completion queue for each slot of `ns`, all DONE. -/
def withDone (ns : List (Fin 8)) (s : State) : State :=
  let s := ns.foldl (fun s n => withSlot n (slotOf .done (desc .sync 0 0)) s) s
  { s with csq := { s.csq with completions := ns.map fun n => s.recordOf n .ok 0 } }

/-- `s` with the staging words. -/
def staged (a b c d : Word) (s : State) : State := { s with csq := { s.csq with cd := #v[a, b, c, d] } }

/-- An apply of kind `k` in slot `n`. -/
def applyOf (n : Fin 8) (k : StartKind) (step : Nat) (w : Wait) : Apply :=
  { slot := n, kind := k, step := step, wait := w, seq0 := 0, accepted := [], pendingLocs := [], noteLoc := none
    heldRetry := false }

/-- `s` with the apply of a command in slot 0. -/
def applying (c : Desc) (a : Apply) (s : State) : State :=
  let s := withSlot 0 (slotOf .applying c) s
  { s with csq := { s.csq with apply := some a }, pwr := { s.pwr with state := .active } }

/-- `s` with an operation at the media port. -/
def porting (req : Requester) (op : MediaOp) (s : State) : State :=
  { s with mm := { s.mm with port := some { req := req, op := op, ticks := 0 } }, pwr := { s.pwr with state := .active } }

/-- The same, at the stall limit. -/
def stalling (req : Requester) (op : MediaOp) (s : State) : State :=
  { s with mm := { s.mm with port := some { req := req, op := op, ticks := 400 } }, pwr := { s.pwr with state := .active } }

/-- `s` with a record of line `l`. -/
def withLine (l : Fin 32) (x : Line) (s : State) : State :=
  { s with fc := { s.fc with lines := s.fc.lines.set l.val x l.isLt } }

/-- A line that holds folio `f`. -/
def lineOf (st : LineState) (f : Nat) : Line := { Line.reset with state := st, folio := f, version := 1, data := [7] }

/-- `s` with line 0 DIRTY and on the dirty list. -/
def dirtied (f : Nat) (s : State) : State :=
  let s := withLine 0 (lineOf .dirty f) s
  { s with fc := { s.fc with dirtyList := [0] } }

/-- `s` with every line DIRTY. -/
def allDirty (s : State) : State := { s with fc := { s.fc with lines := Vector.replicate 32 (lineOf .dirty 90) } }

/-- `s` with a ticket captured from line `l`. -/
def ticketed (l : Fin 32) (f : Nat) (s : State) : State :=
  { s with fc := { s.fc with ticket := some { line := l, folio := f, version := 1, seq := 5, data := [7] } } }

/-- The metadata of a DATA folio. -/
def dataMeta (f : Nat) (seq : Word) : Metadata :=
  { kind := .data, start := f, count := 0, seq := seq, copyMark := false, base := 0 }

/-- A cell with a DATA folio. -/
def cellOf (f : Nat) (seq : Word) : Cell := { metadata := dataMeta f seq, data := [7], complete := true, rotten := false }

/-- A program of a DATA folio. -/
def progOf (f : Nat) (seq : Word) : Prog := { metadata := dataMeta f seq, data := [7], rotten := false }

/-- `s` with folio 5 programmed at `loc` and mapped there. -/
def mapped (loc : Loc) (s : State) : State :=
  { s with mm := { s.mm with
      flash := [(loc, cellOf 5 3)]
      map := { unlisted := .never, items := [(5, { state := .mapped, target := some loc, seq := 3 })] } } }

/-- `s` with folio 5 in a map state. -/
def mapState (st : MapState) (s : State) : State :=
  { s with mm := { s.mm with map := { unlisted := .never, items := [(5, { state := st, target := some 130, seq := 3 })] } } }

/-- Read-only mode. -/
def readOnly (s : State) : State := { s with mm := { s.mm with readOnly := true } }

/-- `s` with pending faults. -/
def faulted (f : BitVec 4) (s : State) : State := { s with ntc := { s.ntc with faults := f } }

/-- `s` with reservations. -/
def reserved (rs : List Rsv) (s : State) : State := { s with rvt := { s.rvt with entries := rs } }

/-- A reservation. -/
def rsv (token : Byte) (start length : Nat) : Rsv := { token := token, start := start, length := length }

/-- `s` with a power state. -/
def powered (p : PowerState) (s : State) : State := { s with pwr := { s.pwr with state := p } }

/-- A group in a state, with an origin. -/
def groupIn (st : GroupState) : Group := { Group.fresh with state := st }

/-- `s` with groups 0 up to `n - 1` FULL. -/
def filled (n : Nat) (s : State) : State :=
  { s with mm := { s.mm with groups := (List.range n).map fun g => (g, groupIn .full) } }

/-- `s` with a mount in a phase. -/
def mounting (m : Mount) (s : State) : State := { s with mount := some m, pwr := { s.pwr with state := .mounting } }

/-! ### Witnesses: the machine and its invariants -/

theorem test_witness_StepRunsFrontCommand : base.pending = [] := by decide +kernel

theorem test_witness_CommandsActOnCaughtUpStates :
    Instr.isDueRow (.tick none none) = false ∧ Instr.isDueRow .read = true ∧ base.AtRest := by decide +kernel

/-- An apply with a held retry, in a freeze and out of it; a mount, and none; empty roles with FREE groups to take and with too
few; a live and a dead record of a commit note. -/
theorem test_witness_UnitEndLeavesTheRest :
    (let a := { applyOf 0 .writeThrough 0 (.forMedia (.prog (progOf 5 9))) with heldRetry := true }
     let s := applying (desc .write 5 1) a base
     s.csq.apply = some a ∧ (s.slot a.slot).state ≠ .settling ∧ (endUnit s).csq.apply = some { a with heldRetry := false }
       ∧ (endUnit (faulted 8 s)).csq.apply = some a)
      ∧ base.csq.apply = none ∧ (mounting .start base).mount.isSome = true
      ∧ (let s := { base with mm := { base.mm with groups := [], reclaimOpen := none, hostOpen := none } }
         s.mount = none ∧ s.rst.portReset = false ∧ s.rst.inReset = none ∧ s.StoresSound ∧ (∀ p ∈ s.mm.groups, p.1 < 4096)
           ∧ (endUnit s).mm.reclaimOpen = some 0 ∧ (endUnit s).mm.hostOpen = some 1)
      ∧ (let t := endUnit (filled 4094 { base with mm := { base.mm with reclaimOpen := none, hostOpen := none } })
         t.mm.reclaimOpen = some 4094 ∧ t.mm.hostOpen = none)
      ∧ (let n : CommitNote := { start := 5, count := 1, base := 9, seq := 10, loc := 131 }
         let c : Cell := { cellOf 5 9 with metadata := { dataMeta 5 9 with kind := .tentative, base := 9 } }
         let s := mapped 130 base
         let s := { s with mm := { s.mm with flash := [(130, c)], commitNotes := [{ n with base := 8 }, n] } }
         s.StoresSound ∧ (endUnit s).mm.commitNotes = [n]) := by decide +kernel

/-- A new owner; no owner and a slot in the run queue; a slot that settles; a free buffer of each number and a slot for it, alone,
behind a SLEEP that is DONE and behind one that is not. -/
theorem test_witness_UnitEndSettlesAndGrantsThePort :
    (let s := withBuf 0 [] 0 (withSlot 0 (slotOf .loading (desc .write 0 1)) base)
     (endUnit s).dp.owner = some 0 ∧ s.dp.owner ≠ some 0)
      ∧ (let t := endUnit (withSlot 0 { slotOf .settling (desc .clean 0 1) with
            triples := [{ line := 0, folio := 0, version := 1 }] } base)
         t.dp.owner = none ∧ t.ntc.pendingFault .f4 = false ∧ 0 ∈ t.csq.runQueue ∧ (t.slot 0).state = .settling)
      ∧ (let s := withSlot 0 (slotOf .queued (desc .read 5 1)) base
         s.mount = none ∧ s.rst.portReset = false ∧ s.rst.inReset = none ∧ (s.buf .tb0).holder = none
           ∧ s.csq.runQueue = [] ++ 0 :: [] ∧ (assignOne s).bufOf 0 = some .tb0)
      ∧ (let s := withBuf 0 [] 0 (withSlot 1 (slotOf .queued (desc .write 5 1)) (withSlot 0 (slotOf .loaded (desc .write 5 1)) base))
         (s.buf .tb0).holder ≠ none ∧ (s.buf .tb1).holder = none ∧ (assignOne s).bufOf 1 = some .tb1
           ∧ ((assignOne s).slot 1).state = .loading)
      ∧ (let s (st : SlotState) := withSlot 1 (slotOf .queued (desc .read 5 1)) (withSlot 0 (slotOf st (desc .sleep 0 0)) base)
         (s .done).csq.runQueue = [0] ++ 1 :: [] ∧ (assignOne (s .done)).bufOf 1 = some .tb0
           ∧ (assignOne (s .applying)).bufOf 1 = none) := by
  decide +kernel

/-- A settling command of each kind whose condition holds, and one of each kind whose condition does not: it ends, or waits. -/
theorem test_witness_UnitEndSettlesAndGrantsThePort_settling :
    (let s (c : Cmd) := withSlot 1 (slotOf .settling (desc c 5 1)) (withSlot 0 (slotOf .done (desc .read 5 1)) base)
     let waiting (x : Slot) : State := withSlot 1 x base
     let states (s : State) : SlotState × Bool := (((endUnit s).slot 1).state, s.settleMet 1)
     ([Cmd.clean, .flush, .purge, .sync].Forall fun c => states (s c) = (.done, true))
       ∧ states (waiting { slotOf .settling (desc .flush 5 1) with triples := [{ line := 0, folio := 5, version := 1 }] }) =
         (.settling, false)
       ∧ states (withLine 31 { lineOf .dirty 5 with purgeMark := some 1 } (s .purge)) = (.settling, false)
       ∧ states (withSlot 1 (slotOf .settling (desc .sync 0 0)) (withSlot 0 (slotOf .unloading (desc .read 5 1)) base)) =
         (.settling, false)) := by decide +kernel

/-- A power state that lasts, and each computed one. -/
theorem test_witness_PowerStateFollowsConditions :
    (endUnit (powered .doze base)).pwr.state = .doze ∧ (endUnit (powered .waking { base with
        pwr := { base.pwr with powerUp := some 0 } })).pwr.state = .waking
      ∧ (endUnit (powered .sleep base)).pwr.state = .sleep
      ∧ (endUnit base).pwr.state = .idle ∧ (endUnit (porting .relocation (.read 0) base)).pwr.state = .active
      ∧ (let s := powered .waking { base with pwr := { base.pwr with powerUp := none } }
         s.pwr.state = .waking ∧ s.pwr.powerUp = none ∧ s.mm.port = none ∧ (endUnit s).pwr.state = .idle)
      ∧ (endUnit (powered .sleep base)).pwr.mediaOn = false := by decide +kernel

theorem test_witness_StepKeepsConfigLegal :
    base.ConfigSound ∧ ∃ t, step { base with pending := [.tick none none] } = .next t := ⟨by decide +kernel, _, rfl⟩

/-- The state before the step is `base` with a queue, which no invariant reads. -/
theorem test_witness_StepKeepsServiceStack :
    State.ConfigSound { base with pending := [.claim] } ∧ State.ServiceSound { base with pending := [.claim] }
      ∧ ∃ t, step { base with pending := [.claim] } = .next t := ⟨by decide +kernel, by decide +kernel, _, rfl⟩

theorem test_witness_StepKeepsStoresCanonical :
    State.StoresSound { mapped 130 base with pending := [.mediaPortGrant] }
      ∧ ∃ t, step { mapped 130 base with pending := [.mediaPortGrant] } = .next t := ⟨by decide +kernel, _, rfl⟩

theorem test_witness_StepKeepsSlotsAgreed :
    State.SlotsSound { writing 0x15 (withDone [0, 7] base) with pending := [.retire 0] }
      ∧ ∃ t, step { writing 0x15 (withDone [0, 7] base) with pending := [.retire 0] } = .next t := ⟨by decide +kernel, _, rfl⟩

theorem test_witness_TicketIsNeverCancelled :
    (∃ t, exec .statePoll (ticketed 0 5 base) = .next t)
      ∧ ∃ k, (ticketed 0 5 base).fc.ticket = some k := ⟨⟨_, rfl⟩, _, rfl⟩

/-- A frozen part, with and without an operation that its apply has requested. -/
theorem test_witness_FreezeStopsTheEngines :
    (faulted 8 base).AtRest ∧ (faulted 8 base).frozen = true
      ∧ (let s := faulted 2 (applying (desc .trim 0 1) (applyOf 0 .trim 1 (.forMedia (.prog (progOf 0 1)))) base)
         s.AtRest ∧ s.frozen = true ∧ (grantApply s).isSome = true) := by decide +kernel

theorem test_witness_ReservationsSurviveOtherWork :
    (reserved [rsv 1 0 4] base).AtRest ∧ (∃ t, exec .frameEnd (reserved [rsv 1 0 4] base) = .next t)
      ∧ (∃ t, exec (.submit 0) (reserved [rsv 1 0 4] base) = .next t)
      ∧ (∃ t, exec (.registerWrite 0x02 0) (reserved [rsv 1 0 4] base) = .next t)
      ∧ ([(0 : Word), 3, 8, 0xC].Forall fun w => ¬(w.getLsbD 2 = true ∧ w.toNat < 8)) :=
  ⟨by decide +kernel, ⟨_, rfl⟩, ⟨_, rfl⟩, ⟨_, rfl⟩, by decide +kernel⟩

/-! ### Witnesses: frames and words -/

theorem test_witness_SelectPinBracketsFrames :
    base.AtRest ∧ base.hpi.selected = false ∧ (reading 0 base).AtRest ∧ (reading 0 base).hpi.selected = true := by decide +kernel

/-- The three type bytes, and bytes on each side of them. -/
theorem test_witness_TypeByteSelectsFrame :
    (let s : State := { base with hpi := { base.hpi with selected := true, phase := .typeByte } }
     s.AtRest ∧ s.hpi.phase = .typeByte)
      ∧ [(0x00 : Byte), 0xA0, 0xA3, 0xA4, 0xA6, 0xFF].Forall fun b => b ≠ 0xA1 ∧ b ≠ 0xA2 ∧ b ≠ 0xA5 := by decide +kernel

theorem test_witness_StatePollDrivesDeviceState :
    (let s : State := { base with hpi := { base.hpi with
        selected := true, phase := .header, frame := some .statePoll, wordsDue := 1 } }
     s.AtRest ∧ s.hpi.wordDue .statePoll = true)
      ∧ (let s : State := { base with hpi := { base.hpi with selected := true, phase := .data, frame := some .statePoll } }
         s.AtRest ∧ s.hpi.frame = some .statePoll ∧ s.hpi.phase = .data ∧ s.hpi.wordsDue = 0)
      ∧ (withDone [0, 1, 2, 3, 4, 5, 6, 7] base).AtRest
      ∧ (withDone [0, 1, 2, 3, 4, 5, 6, 7] base).csq.completions.length ≤ 8 := by decide +kernel

/-- The lowest and the highest address, and a word after a snapshot; a word that is owed; the last word begun; each case of the
registers that have one. -/
theorem test_witness_CaptureTakesRegisterValue :
    (∀ s ∈ [reading 0x00 base, reading 0xFFFF base, readingOn 0x14 { base with hpi := { base.hpi with
        snapshot := some .zero } }],
      s.AtRest ∧ s.hpi.wordDue .readBurst = true ∧ s.hpi.owes = false ∧ s.held = false
        ∧ regOf s.hpi.nextAddr ≠ some .dataPort ∧ regOf s.hpi.nextAddr ≠ some .claim
        ∧ (s.hpi.snapshot = none ∨ ∀ n, regOf s.hpi.nextAddr ≠ some (.ch n))
        ∧ ¬(s.hpi.phase = .header ∧ s.hpi.nextAddr = 0x10))
      ∧ ((owing 0x24 .raiseF1 base).AtRest ∧ (owing 0x24 .raiseF1 base).hpi.owes = true)
      ∧ (pastLast base).AtRest ∧ (pastLast base).hpi.owes = false ∧ (pastLast base).hpi.frame = some .readBurst
      ∧ (pastLast base).hpi.phase = .data ∧ (pastLast base).hpi.wordsDue = 0
      ∧ base.rst.collision = none ∧ base.hpi.log.reason = none ∧ base.rvt.entries[3]? = none ∧ base.rvt.lost = none
      ∧ base.mount = none ∧ State.reset.mount ≠ none
      ∧ (let s := breakAll .media (reserved [rsv 255 245759 1] (reject .badFrame 1 2 (partialReset .collision (some (.f4, .f2))
            base)))
         s.rst.collision = some (.f4, .f2) ∧ s.rvt.lost = some { cause := .media, token := 255 })
      ∧ (reject .badFrame 1 2 base).hpi.log.reason = some .badFrame
      ∧ (reserved (List.replicate 4 (rsv 255 245744 16)) base).rvt.entries[3]? = some (rsv 255 245744 16) := by decide +kernel

theorem test_witness_HeadSnapshotIsServed :
    (let s := reading 0x10 base
     s.AtRest ∧ s.hpi.wordDue .readBurst = true ∧ s.hpi.owes = false ∧ s.held = false ∧ s.hpi.phase = .header
       ∧ s.hpi.nextAddr = 0x10)
      ∧ ∀ n ∈ [(0 : Fin 4), 3],
        let s : State := readingOn (BitVec.ofNat 16 (0x10 + n.val)) { base with hpi := { base.hpi with snapshot := some .zero } }
        s.AtRest ∧ s.hpi.wordDue .readBurst = true ∧ s.hpi.owes = false ∧ s.held = false ∧ s.hpi.phase = .data
          ∧ s.hpi.snapshot = some .zero ∧ s.hpi.nextAddr = BitVec.ofNat 16 (0x10 + n.val) := by decide +kernel

/-- An empty completion queue and a full one; an apply and none; a port owner and none. -/
theorem test_witness_HeadSnapshotIsServed_views :
    base.csq.completions = [] ∧ (withDone [0, 1, 2, 3, 4, 5, 6, 7] base).csq.completions.length = 8
      ∧ (withDone [0, 1, 2, 3, 4, 5, 6, 7] base).csq.runQueue.length ≤ 8 ∧ base.csq.apply = none
      ∧ (applying (desc .read 5 1) (applyOf 0 .read 0 .between) base).csq.apply.isSome = true
      ∧ base.dp.owner = none ∧ (owned 7 base).dp.owner = some 7 := by decide +kernel

/-- Both ends of every range of undecoded addresses. -/
theorem test_witness_UndecodedAddressesDoNothing :
    [(0x06 : WordAddr), 0x07, 0x16, 0x17, 0x1A, 0x1F, 0x2A, 0x2F, 0x33, 0x37, 0x3E, 0xFF, 0x200, 0xFFFF].Forall fun a =>
      regOf a = none ∧ (writing a base).Takes a ∧ (reading a base).AtRest
        ∧ (reading a base).hpi.wordDue .readBurst = true ∧ (reading a base).hpi.owes = false
        ∧ (reading a base).hpi.nextAddr = a := by decide +kernel

theorem test_witness_DataWindowIsDataPort :
    [(0x19 : WordAddr), 0x100, 0x1FF].Forall fun a => regOf a = some .dataPort ∧ (writing a base).Takes a := by decide +kernel

theorem test_witness_ResetHeldServesTwoRegisters :
    ([(0x00 : WordAddr), 0x01, 0x02, 0x03, 0xFFFF].Forall fun a => let s := reading a held
      s.AtRest ∧ s.held = true ∧ s.hpi.wordDue .readBurst = true ∧ s.hpi.owes = false ∧ s.hpi.snapshot = none)
      ∧ (∀ p ∈ [(Instr.submit 0, (0x0C : WordAddr)), (.registerWrite 0x00 0, 0x00), (.registerWrite 0xFFFF 0, 0xFFFF)],
        p.1.writeRow = some p.2 ∧ p.2 ≠ 0x02 ∧ (writing p.2 held).AtRest ∧ (writing p.2 held).held = true
          ∧ (writing p.2 held).hpi.acceptsWrite p.2 = true)
      ∧ Instr.writeRow (.submit 0) = some 0x0C ∧ base.AtRest ∧ base.hpi.acceptsWrite 0x0C = false := by decide +kernel

theorem test_witness_RejectIsRecorded :
    (writing 0x05 base).Serves 0x05
      ∧ ([(0x20 : Word), 0x80].Forall fun w => w &&& 0xE0 ≠ 0)
      ∧ ([(0x10 : Word), 0xFFFFFF1F].Forall fun w => w &&& 0xE0 = 0 ∧ w.getLsbD 4 = true)
      ∧ ([(0x00 : Word), 0xFFFFFF0F].Forall fun w => w &&& 0xE0 = 0 ∧ w.getLsbD 4 = false)
      ∧ base.held = false ∧ held.held = true := by decide +kernel

/-! ### Witnesses: the data port -/

/-- Slot 0 as the port owner in an OUT phase of 256 words, `k` of them consumed. -/
def outPhase (k : Nat) : State :=
  owned 0 (withBuf 0 (List.replicate 256 9) k (withSlot 0 (slotOf .unloading (desc .read 0 1)) (powered .active base)))

/-- Slot 0 as the port owner in an IN phase of 256 words, `k` of them stored. -/
def inPhase (k : Nat) : State :=
  owned 0 (withBuf 0 (List.replicate k 9) 0 (withSlot 0 (slotOf .loading (desc .write 0 1)) (powered .active base)))

/-- Captures: no owner, the other direction, the OUT phase. Completions: a dropped and an absent side effect, a stray word, a
word that is not the last and the last one. -/
theorem test_witness_DataWordIsCapturedThenConsumed :
    (∀ s ∈ [reading 0x19 base, reading 0x1FF (inPhase 0), reading 0x100 (outPhase 0)],
      s.AtRest ∧ s.hpi.wordDue .readBurst = true ∧ s.hpi.owes = false ∧ s.held = false
        ∧ isDataPortAddr s.hpi.nextAddr = true)
      ∧ base.dp.owner = none ∧ (inPhase 0).dp.owner = some 0 ∧ ((inPhase 0).slot 0).state ≠ .unloading
      ∧ (outPhase 0).dp.owner = some 0 ∧ ((outPhase 0).slot 0).state = .unloading
      ∧ (∀ e ∈ [ReadEffect.dropped, .nothing, .strayReject 2], (owing 0x19 e base).AtRest
        ∧ (owing 0x19 e base).hpi.captured = some { addr := 0x19, value := 0, effect := e }
        ∧ isDataPortAddr 0x19 = true)
      ∧ ∀ k ∈ [0, 254, 255], let s := owing 0x1FF .consumeWord (outPhase k)
        s.AtRest ∧ s.hpi.captured = some { addr := 0x1FF, value := 0, effect := .consumeWord }
          ∧ isDataPortAddr 0x1FF = true ∧ s.dp.owner = some 0 ∧ (s.slot 0).state = .unloading
          ∧ s.bufOf 0 = some .tb0 ∧ ((s.buf .tb0).consumed + 1 < (s.buf .tb0).words.length ∨ k = 255)
          ∧ (k = 255 → (s.buf .tb0).words.length ≤ (s.buf .tb0).consumed + 1) := by decide +kernel

/-- No owner, the other direction, a word that is not the last and the last one. -/
theorem test_witness_DataWordIsStored :
    ([(0x19 : WordAddr), 0x100, 0x1FF].Forall fun a => isDataPortAddr a = true ∧ (writing a base).Serves a
      ∧ (writing a (outPhase 0)).Serves a ∧ (writing a (inPhase 254)).Serves a ∧ (writing a (inPhase 255)).Serves a)
      ∧ (writing 0x19 base).dp.owner = none
      ∧ (writing 0x19 (outPhase 0)).dp.owner = some 0 ∧ ((outPhase 0).slot 0).state ≠ .loading
      ∧ (∀ k ∈ [254, 255], (inPhase k).dp.owner = some 0 ∧ ((inPhase k).slot 0).state = .loading
        ∧ (inPhase k).bufOf 0 = some .tb0)
      ∧ ((inPhase 254).buf .tb0).words.length + 1 < ((inPhase 254).slot 0).desc.count * 256
      ∧ ((inPhase 255).slot 0).desc.count * 256 ≤ ((inPhase 255).buf .tb0).words.length + 1 := by decide +kernel

theorem test_witness_CompletionLeavesOneRecord :
    (inPhase 0).bufOf 0 = some .tb0 ∧ (inPhase 0).bufOf 0 ≠ some .tb1 ∧ (7 : Fin 8) ≠ 0 := by decide +kernel

/-- `base` with U and T. -/
def counting (u : Nat) (t : BitVec 4) : State := { base with ntc := { base.ntc with unannounced := u, threshold := t } }

theorem test_witness_CompletionsAreCoalesced :
    (counting 7 8).ntc.unannounced + 1 = (counting 7 8).ntc.threshold.toNat
      ∧ (counting 1 8).ntc.unannounced + 1 ≠ (counting 1 8).ntc.threshold.toNat ∧ 0 < (counting 1 8).ntc.unannounced
      ∧ (counting 0 8).ntc.unannounced + 1 ≠ (counting 0 8).ntc.threshold.toNat ∧ (counting 0 8).ntc.unannounced = 0 := by
  decide +kernel

/-! ### Witnesses: the Notification Controller -/

/-- An NTC with pending events, enabled, at levels 1, 6, 6 and 0. -/
def ntcOf (pending : BitVec 9) (faults : BitVec 4) (quiet : BitVec 12) (level : Nat) : Ntc :=
  { Ntc.reset with evPending := pending, evEnable := 511, evLevel := 0o0661, faults := faults, quiet := quiet, level := level }

/-- F4 and F1 as the highest pending fault; no fault, with no eligible source and with two of one level; a winner above the
current level. -/
theorem test_witness_WinnerIsHighestEligible :
    ([(FaultCode.f4, ntcOf 7 15 0 0), (.f1, ntcOf 7 1 0 0)].Forall fun p =>
      p.2.pendingFault p.1 = true
        ∧ [FaultCode.f1, .f2, .f3, .f4].Forall fun g => p.2.pendingFault g = true → g.level ≤ p.1.level)
      ∧ ([ntcOf 0 0 0 0, ntcOf 8 0 0 0, ntcOf 7 0 0 0, ntcOf 7 0 4095 0].Forall fun n =>
        [FaultCode.f1, .f2, .f3, .f4].Forall fun f => n.pendingFault f = false)
      ∧ (∀ i < 9, (ntcOf 8 0 0 0).eligible i = false)
      ∧ (ntcOf 7 0 0 0).eligible 1 = true
      ∧ (∀ j < 9, (ntcOf 7 0 0 0).eligible j = true →
        (ntcOf 7 0 0 0).levelOf j < (ntcOf 7 0 0 0).levelOf 1
          ∨ ((ntcOf 7 0 0 0).levelOf j = (ntcOf 7 0 0 0).levelOf 1 ∧ 1 ≤ j))
      ∧ (ntcOf 1 0 1 0).eligible 0 = false
      ∧ (ntcOf 7 0 0 6).claimable = none ∧ (ntcOf 7 0 0 5).claimable = some { code := 1, level := 6, maskable := true } := by
  decide +kernel

/-- `base` with this NTC. -/
def withNtc (n : Ntc) : State := { base with ntc := n }

/-- Captures: nothing to claim, a full stack, a stack with one entry free. Completions: each effect. -/
theorem test_witness_ClaimIsCapturedThenMade :
    ([withNtc (ntcOf 0 0 0 0), withNtc { ntcOf 2 0 0 0 with stack := [5, 4, 3, 2, 1, 0] },
        withNtc { ntcOf 2 0 0 0 with stack := [4, 3, 2, 1, 0] }].Forall fun s =>
      (reading 0x24 s).AtRest ∧ (reading 0x24 s).hpi.wordDue .readBurst = true ∧ (reading 0x24 s).hpi.owes = false
        ∧ (reading 0x24 s).held = false ∧ (reading 0x24 s).hpi.nextAddr = 0x24)
      ∧ (ntcOf 0 0 0 0).claimable = none
      ∧ { ntcOf 2 0 0 0 with stack := [5, 4, 3, 2, 1, 0] }.claimable.isSome = true
      ∧ { ntcOf 2 0 0 0 with stack := [4, 3, 2, 1, 0] }.claimable.isSome = true
      ∧ [ReadEffect.nothing, .dropped, .raiseF1, .pushClaim 6].Forall fun e =>
        (owing 0x24 e base).AtRest ∧ (owing 0x24 e base).hpi.captured = some { addr := 0x24, value := 0, effect := e } := by
  decide +kernel

/-- A stack with one entry, and an empty one; the lowest and highest word that is not 0. -/
theorem test_witness_EndPopsServiceStack :
    (writing 0x25 (withNtc { ntcOf 0 0 0 6 with stack := [0] })).Serves 0x25
      ∧ (writing 0x25 base).Serves 0x25 ∧ (writing 0x25 base).ntc.stack = []
      ∧ ((0 : Word) = 0) ∧ ((1 : Word) ≠ 0) ∧ ((0xFFFFFFFF : Word) ≠ 0) := by decide +kernel

/-- Each register at the boundaries of what it accepts. -/
theorem test_witness_NotificationRegistersAreWritten :
    ([(0x20 : WordAddr), 0x21, 0x22, 0x23, 0x27, 0x00, 0x01, 0x04, 0x0E, 0x0F, 0x10, 0x11, 0x12, 0x13, 0x14, 0x18, 0x24, 0x31,
        0x38, 0x39, 0x3A, 0x3B, 0x3C, 0x3D].Forall fun a => (writing a base).Serves a)
      ∧ (0 : Word).toNat < 512 ∧ (511 : Word).toNat < 512 ∧ 512 ≤ (512 : Word).toNat ∧ 512 ≤ (0xFFFFFFFF : Word).toNat
      ∧ ([(0 : Word), 0o666666666].Forall fun w =>
        w.toNat < 2 ^ 27 ∧ ∀ i < 9, (w.extractLsb' (3 * i) 3).toNat ≤ 6)
      ∧ ([(7 : Word), 0x08000000, 0xFFFFFFFF].Forall fun w =>
        ¬(w.toNat < 2 ^ 27 ∧ ∀ i < 9, (w.extractLsb' (3 * i) 3).toNat ≤ 6))
      ∧ ([(0 : Word), 0x03FFFF0F].Forall fun w => w &&& 0xFC0000F0 = 0)
      ∧ ([(0x10 : Word), 0x04000000].Forall fun w => w &&& 0xFC0000F0 ≠ 0)
      ∧ (1 : Word).toNat < 2 ∧ 2 ≤ (2 : Word).toNat := by decide +kernel

/-- Legal and illegal words for SERVICE, QUIET and COALESCE, with states that make a legal word illegal. -/
theorem test_witness_ServiceQuietCoalesceAreWritten :
    ([(0x26 : WordAddr), 0x28, 0x29].Forall fun a => (writing a base).Serves a)
      ∧ ([(0 : Word), 6, 0x706].Forall fun w => w &&& 0xFFFFF8F0 = 0 ∧ base.ntc.nestOff = false ∧ base.ntc.level ≤ 6
        ∧ w.toNat % 16 ≤ 6)
      ∧ ([(7 : Word), 0x10, 0x800].Forall fun w => ¬(w &&& 0xFFFFF8F0 = 0 ∧ w.toNat % 16 ≤ 6))
      ∧ ([writing 0x26 (withNtc (ntcOf 0 0 0 7)), writing 0x26 (withNtc { ntcOf 0 0 0 0 with nestOff := true })].Forall fun s =>
        s.Serves 0x26 ∧ ¬(s.ntc.nestOff = false ∧ s.ntc.level ≤ 6))
      ∧ 4096 ≤ (4096 : Word).toNat ∧ (4095 : Word).toNat < 4096
      ∧ (writing 0x28 (withNtc (ntcOf 0 0 7 0))).Serves 0x28
      ∧ (ntcOf 0 0 7 0).quiet.toNat < (8 : Word).toNat ∧ 0 < (1 : Word).toNat ∧ (1 : Word).toNat ≤ (ntcOf 0 0 7 0).quiet.toNat
      ∧ (7 : Word).toNat ≤ (ntcOf 0 0 7 0).quiet.toNat
      ∧ ([(1 : Word), 0x000FFF08].Forall fun w => w &&& 0xFFF000F0 = 0 ∧ 1 ≤ w.toNat % 16 ∧ w.toNat % 16 ≤ 8)
      ∧ ([(0 : Word), 9, 0x11, 0x100001].Forall fun w => ¬(w &&& 0xFFF000F0 = 0 ∧ 1 ≤ w.toNat % 16 ∧ w.toNat % 16 ≤ 8))
      ∧ (let s := writing 0x29 (counting 2 8); s.Serves 0x29 ∧ s.ntc.unannounced < (3 : Word).toNat % 16
        ∧ (2 : Word).toNat % 16 ≤ s.ntc.unannounced) := by decide +kernel

theorem test_witness_PolicyAndDelayAreWritten :
    (writing 0x30 base).Serves 0x30 ∧ (writing 0x32 base).Serves 0x32
      ∧ ([(0x00000001 : Word), 0x00011F20].Forall fun w =>
        w &&& 0xFFFEC0C0 = 0 ∧ 1 ≤ w.toNat % 64 ∧ w.toNat % 64 ≤ 32 ∧ w.toNat / 256 % 64 < w.toNat % 64)
      ∧ ([(0 : Word), 33, 0x101, 0x41, 0x20001].Forall fun w =>
        ¬(w &&& 0xFFFEC0C0 = 0 ∧ 1 ≤ w.toNat % 64 ∧ w.toNat % 64 ≤ 32 ∧ w.toNat / 256 % 64 < w.toNat % 64))
      ∧ 256 ≤ (256 : Word).toNat ∧ 0 < (1 : Word).toNat ∧ (255 : Word).toNat < 256 := by decide +kernel

/-! ### Witnesses: submission, ABORT, RETIRE -/

theorem test_witness_StagingWordsKeepTheirContents :
    (∀ n : Fin 4, (writing (BitVec.ofNat 16 (8 + n.val)) base).Serves (BitVec.ofNat 16 (8 + n.val)))
      ∧ (0x2000 : Word) &&& 0xE000E000 ≠ 0 ∧ (0x80000000 : Word) &&& 0xE000E000 ≠ 0
      ∧ (0x1FFF1FFF : Word) &&& 0xE000E000 = 0
      ∧ (∃ t, exec .statePoll base = .next t) ∧ (∃ t, exec (.registerWrite 12 0) base = .next t)
      ∧ (12 : WordAddr) ∉ ([8, 9, 10, 11] : List WordAddr) ∧ (∃ t, exec (.submit 0) base = .next t) :=
  ⟨by decide +kernel, by decide +kernel, by decide +kernel, by decide +kernel, ⟨_, rfl⟩, ⟨_, rfl⟩, by decide +kernel, ⟨_, rfl⟩⟩

/-- A state that serves SUBMIT, with a command staged: `cd0` and the folio. -/
def submitting (cd0 cd1 cd2 : Word) : State := writing 0x0C (staged cd0 cd1 cd2 7 base)

/-- The descriptor that is staged. -/
def stagedDesc (c : Cmd) (s : State) : Desc :=
  let cd0 := s.csq.cd[0]
  { cmd := c, rsv := cd0.getLsbD 24, cond := cd0.getLsbD 25, atom := cd0.getLsbD 26, thru := cd0.getLsbD 27
    urgent := cd0.getLsbD 28, token := (cd0 >>> 16).setWidth 8, count := cd0.toNat / 256 % 32
    folio := s.csq.cd[1].toNat, aux := s.csq.cd[2], hostTag := s.csq.cd[3] }

/-- The flag check. -/
abbrev flagsOk (d : Desc) : Prop :=
  (d.rsv = true → d.cmd = .read) ∧ ((d.cond = true ∨ d.atom = true ∨ d.thru = true) → d.cmd = .write)

/-- The token check. -/
abbrev tokenOk (d : Desc) : Prop := (d.rsv = true ∨ d.cond = true) → d.token ≠ 0

/-- The range commands. -/
abbrev ranged (c : Cmd) : Prop := c ∈ [Cmd.read, .write, .trim, .prefetch, .clean, .purge, .discard]

/-- The count check. -/
abbrev countOk (d : Desc) : Prop :=
  (ranged d.cmd → 1 ≤ d.count ∧ d.count ≤ 16) ∧ (d.cmd = .describe ∨ d.cmd = .health → d.count = 1)
    ∧ (d.cmd ∈ [Cmd.flush, .sync, .sleep, .eraseAll] → d.count = 0)

/-- The range check. -/
abbrev foliosOk (d : Desc) : Prop :=
  (ranged d.cmd → d.folio + d.count ≤ 245760) ∧ (¬ranged d.cmd → d.folio = 0) ∧ (d.cmd = .health → d.aux = 0 ∨ d.aux = 1)

/-- Reserved bits, the invalid slots, the busy slot, and the cmd fields that name no command. -/
theorem test_witness_SubmitChecksThenAccepts_slot :
    (submitting 0 0 0).Serves 0x0C ∧ 256 ≤ (256 : Word).toNat
      ∧ ([(8 : Word), 255].Forall fun w => 8 ≤ w.toNat ∧ w.toNat < 256)
      ∧ ((7 : Word).toNat = (7 : Fin 8).val) ∧ ((submitting 0 0 0).slot 7).state = .free
      ∧ (let s := withSlot 7 (slotOf .done (desc .sync 0 0)) (submitting 0 0 0); s.Serves 0x0C ∧ (s.slot 7).state ≠ .free)
      ∧ ((0 : Word).toNat % 256 = 0) ∧ (13 < (14 : Word).toNat % 256) ∧ (13 < (255 : Word).toNat % 256) := by decide +kernel

/-- Each of the checks 4 to 7 as the first that fails: RSV on a WRITE, THRU on an ERASE_ALL; token 0 with RSV and with COND;
counts 0 and 17 of a READ, 2 of a HEALTH, 1 of a SLEEP; a range that ends past the last folio, a folio on a FLUSH, an aux of 2
on a HEALTH. -/
theorem test_witness_SubmitChecksThenAccepts_checks :
    (let s := submitting 0x01010102 0 0; s.Serves 0x0C ∧ ¬flagsOk (stagedDesc .write s))
      ∧ (let s := submitting 0x0800000D 0 0; s.Serves 0x0C ∧ ¬flagsOk (stagedDesc .eraseAll s))
      ∧ ([(Cmd.read, submitting 0x01000101 0 0), (.write, submitting 0x02000102 0 0)].Forall fun p =>
        p.2.Serves 0x0C ∧ flagsOk (stagedDesc p.1 p.2) ∧ ¬tokenOk (stagedDesc p.1 p.2))
      ∧ ([(Cmd.read, submitting 0x0001 0 0), (.read, submitting 0x1101 0 0), (.health, submitting 0x020B 0 0),
          (.sleep, submitting 0x010C 0 0)].Forall fun p =>
        p.2.Serves 0x0C ∧ flagsOk (stagedDesc p.1 p.2) ∧ tokenOk (stagedDesc p.1 p.2) ∧ ¬countOk (stagedDesc p.1 p.2))
      ∧ [(Cmd.read, submitting 0x1001 245745 0), (.flush, submitting 0x0008 1 0), (.health, submitting 0x010B 0 2)].Forall
        fun p => p.2.Serves 0x0C ∧ flagsOk (stagedDesc p.1 p.2) ∧ tokenOk (stagedDesc p.1 p.2)
          ∧ countOk (stagedDesc p.1 p.2) ∧ ¬foliosOk (stagedDesc p.1 p.2) := by
  refine ⟨?_, ?_, ?_, ?_, ?_⟩ <;> decide +kernel

/-- Accepted commands: a READ of the last 16 folios, with RSV; a WRITE with COND, ATOM and THRU; an ERASE_ALL, from DOZE. -/
theorem test_witness_SubmitChecksThenAccepts_accepted :
    [(Cmd.read, submitting 0x01FF1001 245744 0), (.write, submitting 0x0E010102 0 0),
        (.eraseAll, writing 0x0C (staged 13 0 0 7 (powered .doze base)))].Forall fun p =>
      p.2.Serves 0x0C ∧ (p.2.slot 7).state = .free
        ∧ ([Cmd.read, .write, .trim, .prefetch, .clean, .purge, .discard, .flush, .sync, .describe, .health, .sleep,
            .eraseAll])[p.2.csq.cd[0].toNat % 256 - 1]? = some p.1
        ∧ 0 < p.2.csq.cd[0].toNat % 256
        ∧ flagsOk (stagedDesc p.1 p.2) ∧ tokenOk (stagedDesc p.1 p.2) ∧ countOk (stagedDesc p.1 p.2)
        ∧ foliosOk (stagedDesc p.1 p.2) := by decide +kernel

/-- ABORT: every state a slot can be in; RETIRE: an empty queue and one with a record. -/
theorem test_witness_AbortAndRetireActByState :
    ([withSlot 7 (slotOf .queued (desc .read 0 1)) (withSlot 0 (slotOf .queued (desc .write 0 1)) base),
        withSlot 7 (slotOf .loading (desc .write 0 1)) base,
        withSlot 7 (slotOf .loaded (desc .write 0 1)) (withSlot 0 (slotOf .loading (desc .write 0 1)) base),
        withSlot 7 (slotOf .unloading (desc .read 0 1)) base, withSlot 7 (slotOf .settling (desc .flush 0 0)) base,
        withSlot 7 (slotOf .done (desc .sync 0 0)) base, base].Forall fun s =>
      (writing 0x0D s).Serves 0x0D ∧ (7 : Word).toNat = (7 : Fin 8).val)
      ∧ (writing 0x0D (applying (desc .read 5 1) (applyOf 0 .read 0 .between) base)).Serves 0x0D
      ∧ ((applying (desc .read 5 1) (applyOf 0 .read 0 .between) base).slot 0).state = .applying
      ∧ 256 ≤ (256 : Word).toNat ∧ 8 ≤ (8 : Word).toNat ∧ (255 : Word).toNat < 256
      ∧ (writing 0x15 base).Serves 0x15 ∧ base.csq.completions = [] ∧ (1 : Word) ≠ 0
      ∧ (writing 0x15 (withDone [3] base)).Serves 0x15 ∧ (withDone [3] base).csq.completions ≠ [] := by decide +kernel

/-! ### Witnesses: HOST_CONTROL, resets, reservations -/

theorem test_witness_HostControlActsInOrder :
    ([base, powered .doze base, powered .sleep base, powered .waking { base with pwr := { base.pwr with powerUp := some 0 } },
        powered .mounting base, powered .active (porting .relocation (.read 0) base)].Forall fun s =>
      (writing 0x03 s).Serves 0x03)
      ∧ 8 ≤ (8 : Word).toNat ∧ (7 : Word).toNat < 8
      ∧ (4 : Word).getLsbD 2 = true ∧ (7 : Word).getLsbD 2 = true
      ∧ ([(0 : Word), 1].Forall fun w => w.getLsbD 2 = false ∧ w.getLsbD 1 = false)
      ∧ [(2 : Word), 3].Forall fun w => w.getLsbD 2 = false ∧ w.getLsbD 1 = true := by decide +kernel

/-- An atomic WRITE of two folios whose commit note has landed, with folio 6 in line 3. -/
def atomicCommitted : State :=
  withLine 3 (lineOf .clean 6) (withBuf 0 (List.replicate 512 9) 0
    (applying { desc .write 5 2 with atom := true } { applyOf 0 .writeAtomic 3 .between with accepted := [0, 1] } base))

/-- No apply; an atomic WRITE before and after its commit; a TRIM before and after its note; an ERASE_ALL after its note. -/
theorem test_witness_PartialResetKeepsAndClears :
    base.csq.apply = none
      ∧ (let a := applyOf 0 .writeAtomic 2 .between
         (applying (desc .write 5 2) a base).csq.apply = some a ∧ a.kind = .writeAtomic
           ∧ a.step ≤ ((applying (desc .write 5 2) a base).slot a.slot).desc.count)
      ∧ (let a := { applyOf 0 .writeAtomic 3 .between with accepted := [0, 1] }
         atomicCommitted.csq.apply = some a ∧ a.kind = .writeAtomic ∧ (atomicCommitted.slot a.slot).desc.count < a.step
           ∧ a.accepted.Nodup ∧ atomicCommitted.findLine 6 = some 3
           ∧ ∀ i ∈ a.accepted, atomicCommitted.findLine (5 + i) ≠ some 4)
      ∧ ([(StartKind.read, 0), (.trim, 1), (.eraseAll, 1)].Forall fun p =>
        let a := applyOf 0 p.1 p.2 .between
        a.kind ≠ .writeAtomic ∧ (a.step < 2 ∨ a.kind ≠ .trim ∧ a.kind ≠ .eraseAll))
      ∧ [StartKind.trim, .eraseAll].Forall fun k => (applyOf 0 k 2 .between).kind = k ∧ 2 ≤ (applyOf 0 k 2 .between).step := by
  decide +kernel

/-- A program in progress, and none; a PORT reset and another. -/
theorem test_witness_FullResetLeavesTheMedia :
    (porting .wbe (.program 64 (progOf 5 4)) (mapped 130 base)).StoresSound ∧ base.StoresSound
      ∧ (ResetKind.port ≠ .por ∧ ResetKind.port ≠ .pin) := by decide +kernel

/-- A list of groups from 0 up, all RETIRED. -/
def retiredTo (n : Nat) : List (Nat × Group) := (List.range n).map fun g => (g, groupIn .retired)

theorem retiredTo_get (n g : Nat) (h : g < n) : sparseGet g (retiredTo n) = some (groupIn .retired) := by
  have key : ∀ k a, a ≤ g → g < a + k →
      sparseGet g ((List.range' a k).map fun g => (g, groupIn .retired)) = some (groupIn .retired) := by
    intro k
    induction k with
    | zero => intro a h1 h2; omega
    | succ k ih =>
      intro a h1 h2
      simp only [List.range'_succ, List.map_cons, sparseGet]
      split
      · rfl
      · exact ih (a + 1) (by omega) (by omega)
  simpa [retiredTo, List.range_eq_range'] using key n 0 (by omega) (by omega)

theorem retiredTo_wf (n : Nat) : sparseWf (retiredTo n) = true := by
  have key : ∀ k a, sparseWf ((List.range' a k).map fun g => (g, groupIn .retired)) = true := by
    intro k
    induction k with
    | zero => intro a; rfl
    | succ k ih =>
      intro a
      cases k with
      | zero => rfl
      | succ k =>
        have := ih (a + 1)
        simp only [List.range'_succ, List.map_cons, sparseWf, Bool.and_eq_true, decide_eq_true_eq] at this ⊢
        exact ⟨by omega, this⟩
  simpa [retiredTo, List.range_eq_range'] using key n 0

/-- `base` with the first groups RETIRED and no other listed. -/
def retired (n : Nat) : State := { base with mm := { base.mm with groups := retiredTo n, hostOpen := none, reclaimOpen := none } }

theorem retired_group (n g : Nat) (h : g < n) : ((retired n).group g).state = .retired := by
  have : (retired n).mm.groups = retiredTo n := rfl
  rw [State.group, this, retiredTo_get n g h]
  rfl

theorem retired_stores (n : Nat) : (retired n).StoresSound := by
  refine ⟨rfl, rfl, retiredTo_wf n, ?_⟩
  intro p hp
  have : p ∈ retiredTo n := hp
  simp only [retiredTo, List.mem_map, List.mem_range] at this
  obtain ⟨g, -, rfl⟩ := this
  show groupIn .retired ≠ Group.fresh
  decide

/-- The causes of a full reset. -/
theorem test_witness_MountBeginsAfterFullReset_causes :
    base.AtRest ∧ base.rst.resetnLow = false
      ∧ (let s : State := { base with rst := { base.rst with resetnLow := true } }; s.AtRest ∧ s.rst.resetnLow = true)
      ∧ (writing 0x02 base).AtRest ∧ (writing 0x02 base).hpi.acceptsWrite 0x02 = true ∧ (writing 0x02 base).held = false
      ∧ (writing 0x02 held).AtRest ∧ (writing 0x02 held).hpi.acceptsWrite 0x02 = true ∧ (writing 0x02 held).held = true
      ∧ ([(1 : Word), 3, 0xFFFFFFFF].Forall fun w => w.getLsbD 0 = true) ∧ (3 : Word) ≠ 1 := by decide +kernel

/-- RESETn, POR and PORT_CONFIG; the first, the last and no group to begin with. -/
theorem test_witness_MountBeginsAfterFullReset :
    (let s : State := { base with rst := { base.rst with inReset := some .por } }; s.AtRest ∧ s.rst.inReset = some .por)
      ∧ base.AtRest ∧ base.rst.inReset ≠ some .por
      ∧ (let s : State := { base with rst := { base.rst with inReset := some .pin, resetnLow := true } }
         s.AtRest ∧ s.rst.resetnLow = true ∧ s.rst.inReset = some .pin)
      ∧ (let s : State := { base with rst := { base.rst with inReset := some .por, resetnLow := true } }
         s.AtRest ∧ s.rst.resetnLow = true ∧ s.rst.inReset ≠ some .pin)
      ∧ (writing 0x02 held).AtRest ∧ (writing 0x02 held).hpi.acceptsWrite 0x02 = true ∧ (writing 0x02 held).held = true
      ∧ (writing 0x02 base).AtRest ∧ (writing 0x02 base).hpi.acceptsWrite 0x02 = true ∧ (writing 0x02 base).held = false
      ∧ 1 < (2 : Word).toNat
      ∧ (base.StoresSound ∧ (base.group 0).state ≠ .retired) := by decide +kernel

theorem test_witness_MountBeginsAfterFullReset_groups :
    ((retired 4095).StoresSound ∧ ((retired 4095).group 4095).state ≠ .retired
        ∧ ∀ h < 4095, ((retired 4095).group h).state = .retired)
      ∧ ((retired 4096).StoresSound ∧ ∀ g < 4096, ((retired 4096).group g).state = .retired) := by
  refine ⟨⟨retired_stores _, by decide +kernel, fun h hh => retired_group _ h hh⟩, retired_stores _, fun g hg => retired_group _ g hg⟩

/-- Entries that are broken and none; a token that is known, a table with room and a full one; hard faults outstanding below,
at and above the arriving one. -/
theorem test_witness_ReservationsAreBrokenAndMade :
    (let p : Rsv → Bool := fun r => r.token == 2
     (reserved [rsv 1 0 4] base).rvt.entries.filter p = []
       ∧ ((reserved [rsv 1 0 4, rsv 2 8 1] base).rvt.entries.filter p).getLast? = some (rsv 2 8 1))
      ∧ (∃ e ∈ (reserved [rsv 1 0 4] base).rvt.entries, e.token = (rsv 1 9 9).token)
      ∧ (let s := reserved [rsv 1 0 1, rsv 2 0 1, rsv 3 0 1] base
         (∀ e ∈ s.rvt.entries, e.token ≠ (rsv 9 9 9).token) ∧ s.rvt.entries.length < 4)
      ∧ (let s := reserved [rsv 1 0 1, rsv 2 0 1, rsv 3 0 1, rsv 4 0 1] base
         (∀ e ∈ s.rvt.entries, e.token ≠ (rsv 9 9 9).token) ∧ 4 ≤ s.rvt.entries.length
           ∧ s.rvt.entries = rsv 1 0 1 :: [rsv 2 0 1, rsv 3 0 1, rsv 4 0 1])
      ∧ FaultCode.f2 ≠ .f1
      ∧ ([(faulted 0 base, FaultCode.f2), (faulted 2 base, .f2), (faulted 6 base, .f4)].Forall fun p =>
        [FaultCode.f1, .f2, .f3, .f4].Forall fun g =>
          (g ≠ .f1 ∧ (p.1.ntc.pendingFault g = true ∨ p.1.ntc.level = 7 + g.index ∨ 7 + g.index ∈ p.1.ntc.stack)) →
            g.index ≤ p.2.index)
      ∧ (let s := faulted 2 { base with ntc := { base.ntc with level := 9, stack := [8] } }
         (s.ntc.pendingFault .f3 = true ∨ s.ntc.level = 7 + FaultCode.f3.index ∨ 7 + FaultCode.f3.index ∈ s.ntc.stack)
           ∧ (s.ntc.pendingFault .f4 = false ∧ s.ntc.level ≠ 10 ∧ 10 ∉ s.ntc.stack) ∧ FaultCode.f2.index < FaultCode.f3.index) := by
  decide +kernel

/-! ### Witnesses: starts -/

/-- `base` with a command that is QUEUED in slot 0 with TB0, and younger than a DONE slot 5. -/
def starting (d : Desc) : State := withBuf 0 [] 0 (withSlot 0 (slotOf .queued d) (withDone [5] base))

/-- The same for a WRITE that is LOADED. -/
def startingWrite (d : Desc) : State := withBuf 0 (List.replicate 256 9) 0 (withSlot 0 (slotOf .loaded d) base)

/-- Each row is due; TRIM and ERASE_ALL also in read-only mode. -/
theorem test_witness_CommandsEnterApplying :
    ([(desc .read 5 1, StartKind.read), (desc .prefetch 5 1, .prefetch), (desc .sleep 0 0, .sleep),
        (desc .discard 5 1, .discard), (desc .trim 5 1, .trim), (desc .eraseAll 0 0, .eraseAll)].Forall fun p =>
      (starting p.1).Starts 0 p.2)
      ∧ (readOnly (starting (desc .trim 5 1))).Starts 0 .trim ∧ (readOnly (starting (desc .trim 5 1))).mm.readOnly = true
      ∧ (readOnly (starting (desc .eraseAll 0 0))).Starts 0 .eraseAll ∧ (starting (desc .trim 5 1)).mm.readOnly = false
      ∧ (let s := withSlot 1 (slotOf .queued (desc .trim 5 1)) (withSlot 0 (slotOf .done (desc .read 5 1)) base)
         s.due = some (.start 1) ∧ (faulted 8 s).due = none)
      ∧ (withSlot 0 (slotOf .loading (desc .write 5 1)) base).due = none
      ∧ (withSlot 0 (slotOf .queued (desc .read 5 1)) base).due = none := by
  decide +kernel

/-- The three paths, in read-only mode and out of it, without COND, with a COND that holds (a reservation that ends where the
WRITE ends) and with one that does not. -/
theorem test_witness_WriteCommitPointChecks :
    ([(desc .write 5 1, StartKind.writeCached), ({ desc .write 5 1 with thru := true }, .writeThrough),
        ({ desc .write 5 1 with atom := true, thru := true }, .writeAtomic)].Forall fun p =>
      (startingWrite p.1).Starts 0 p.2 ∧ (readOnly (startingWrite p.1)).Starts 0 p.2
        ∧ (startingWrite p.1).mm.readOnly = false ∧ p.1.cond = false)
      ∧ (let d := { desc .write 5 1 with cond := true, token := 2 }
         let sat (r : Rsv) : Bool := r.token == d.token && decide (r.start ≤ d.folio ∧ d.folio + d.count ≤ r.start + r.length)
         (reserved [rsv 2 0 6] (startingWrite d)).Starts 0 .writeCached
           ∧ (∃ r ∈ [rsv 2 0 6], sat r = true) ∧ (∀ r ∈ [rsv 2 0 5, rsv 3 0 9, rsv 2 6 9], sat r = false)
           ∧ (reserved [rsv 2 0 5] (startingWrite d)).Starts 0 .writeCached) := by decide +kernel

theorem test_witness_SettlingCommandsRecord :
    [(desc .clean 5 1, StartKind.clean), (desc .flush 0 0, .flush), (desc .sync 0 0, .sync), (desc .purge 5 1, .purge)].Forall
      fun p => (starting p.1).Starts 0 p.2 ∧ (dirtied 5 (starting p.1)).Starts 0 p.2 := by decide +kernel

theorem test_witness_RecordsArePlaced :
    ([(desc .describe 0 1, StartKind.describe), (desc .health 0 1, .healthCounters),
        ({ desc .health 0 1 with aux := 1 }, .healthDefectList)].Forall fun p =>
      (starting p.1).Starts 0 p.2 ∧ (starting p.1).bufOf 0 = some .tb0)
      ∧ base.StoresSound ∧ (∀ p ∈ base.mm.groups, p.1 < 4096)
      ∧ ((List.range 4096).filter fun g => (base.group g).state != .retired) ≠ [] := by
  refine ⟨by decide +kernel, by decide +kernel, by decide +kernel, ?_⟩
  exact List.ne_nil_of_mem (a := 0) (List.mem_filter.2 ⟨List.mem_range.2 (by decide), by decide +kernel⟩)

/-! ### Witnesses: steps -/

/-- A cached WRITE that waits for a line while one is CLEAN. -/
def waitingLine : State := applying (desc .write 5 1) (applyOf 0 .writeCached 0 .forLine) base

/-- A step outside foreground reclaim and one that needs no space in it; one that must wait; one that waits already or is
frozen; the ends of the two waits, foreground reclaim ending at 3 FREE groups; no apply. -/
theorem test_witness_StepsBeginAndResume :
    (let a := applyOf 0 .writeCached 0 .between
     let s := applying (desc .write 5 1) a base
     s.AtRest ∧ s.csq.apply = some a ∧ a.wait = .between ∧ s.frozen = false ∧ 3 ≤ s.freeCount
       ∧ (filled 4094 s).AtRest ∧ (filled 4094 s).freeCount < 3 ∧ 3 ≤ (filled 4093 s).freeCount
       ∧ (faulted 2 s).AtRest ∧ (faulted 2 s).frozen = true)
      ∧ (let a := applyOf 0 .trim 0 .between
         let s := filled 4094 (applying (desc .trim 5 1) a base)
         s.AtRest ∧ s.csq.apply = some a ∧ a.wait = .between ∧ s.frozen = false
           ∧ ¬(a.kind ∈ [StartKind.writeCached, .writeThrough, .writeAtomic] ∨ (a.kind ∈ [StartKind.trim, .eraseAll] ∧ a.step = 1)))
      ∧ (let a := applyOf 0 .trim 1 .forReclaim
         let s := applying (desc .trim 5 1) a base
         (filled 4094 s).AtRest ∧ s.csq.apply = some a ∧ a.wait ≠ .between
           ∧ (a.kind ∈ [StartKind.trim, .eraseAll] ∧ a.step = 1) ∧ a.wait = .forReclaim ∧ 3 ≤ (filled 4093 s).freeCount)
      ∧ waitingLine.csq.apply = some (applyOf 0 .writeCached 0 .forLine) ∧ waitingLine.allocLine.isSome = true
      ∧ base.AtRest ∧ base.csq.apply = none := by decide +kernel

/-- A line to allocate: the lowest INVALID one, the least recently used CLEAN one where none is INVALID, and none. -/
theorem test_witness_ReadStepPlacesItsFolio_lines :
    (let s := withLine 0 (lineOf .clean 5) base
     (s.line 1).state = .invalid ∧ (∀ m < 1, (s.line m).state ≠ .invalid) ∧ s.allocLine = some 1)
      ∧ (let s := withLine 7 (lineOf .clean 5) (withLine 30 (lineOf .clean 6) (allDirty base))
         let s := { s with fc := { s.fc with lru := [31, 30, 7] } }
         (∀ l, (s.line l).state ≠ .invalid) ∧ s.fc.lru = [31] ++ 30 :: [7] ∧ s.allocLine = some 30
           ∧ s.findLine 5 = some 7 ∧ (s.line 31).state ≠ .clean)
      ∧ (∀ l, ((allDirty base).line l).state ≠ .invalid) ∧ (∀ l ∈ (allDirty base).fc.lru, ((allDirty base).line l).state ≠ .clean)
      ∧ (allDirty base).allocLine = none := by decide +kernel

/-- A READ of folio 5 in slot 0 at its first step. -/
def readApply : Apply := applyOf 0 .read 0 .between

/-- Hits, CLEAN and DIRTY; misses of every map state, with a line to allocate and without one; the ends of a READ that placed
nothing, something, and something with RSV. -/
theorem test_witness_ReadStepPlacesItsFolio :
    readApply.kind = .read
      ∧ (let s := withLine 31 (lineOf .clean 5) (applying (desc .read 5 1) readApply base)
         s.findLine ((s.slot 0).desc.folio + 0) = some 31 ∧ (s.line 31).state ≠ .dirty)
      ∧ (let s := dirtied 5 (applying (desc .read 5 1) readApply base)
         s.findLine ((s.slot 0).desc.folio + 0) = some 0 ∧ (s.line 0).state = .dirty)
      ∧ ([MapState.never, .trimmed, .poisoned, .mapped].Forall fun st =>
        let s := mapState st (applying (desc .read 5 1) readApply base)
        s.findLine 5 = none ∧ (s.mapEntry 5).state = st ∧ s.allocLine = some 0 ∧ (allDirty s).allocLine = none
          ∧ (allDirty s).findLine 5 = none)
      ∧ (withSlot 0 (slotOf .applying (desc .read 5 1)) base).wordsOf 0 = []
      ∧ (withBuf 0 [1] 0 (withSlot 0 (slotOf .applying (desc .read 5 1)) base)).wordsOf 0 ≠ []
      ∧ (desc .read 5 1).rsv = false ∧ { desc .read 5 1 with rsv := true }.cmd = .read := by decide +kernel

theorem test_witness_PrefetchStepFillsOrPasses :
    (applyOf 0 .prefetch 0 .between).kind = .prefetch
      ∧ (let s := applying (desc .prefetch 5 2) (applyOf 0 .prefetch 0 .between) base
         (withLine 31 (lineOf .clean 5) s).findLine 5 ≠ none ∧ (s.mapEntry 5).state ≠ .mapped
           ∧ (mapState .mapped s).findLine 5 = none ∧ ((mapState .mapped s).mapEntry 5).state = .mapped
           ∧ (mapState .mapped s).allocLine = some 0 ∧ (allDirty (mapState .mapped s)).findLine 5 = none
           ∧ (allDirty (mapState .mapped s)).allocLine = none) := by decide +kernel

/-- A line that holds the folio, one that can be allocated, and none; a poisoned folio with and without a target. -/
theorem test_witness_CachedWriteStepWritesItsLine :
    (let s := applying (desc .write 5 1) (applyOf 0 .writeCached 0 .between) base
     (dirtied 5 s).findLine 5 = some 0 ∧ s.findLine 5 = none ∧ s.allocLine = some 0
       ∧ (allDirty s).findLine 5 = none ∧ (allDirty s).allocLine = none)
      ∧ (let s := { mapped 130 base with mm := { (mapped 130 base).mm with
            map := { unlisted := .never, items := [(5, { state := .poisoned, target := some 130, seq := 3 })] } } }
         (s.mapEntry 5).state = .poisoned ∧ (s.mapEntry 5).target = some 130 ∧ s.cell 130 = some (cellOf 5 3))
      ∧ (let s := { base with mm := { base.mm with
            map := { unlisted := .never, items := [(5, { state := .poisoned, target := none, seq := 0 })] } } }
         (s.mapEntry 5).state = .poisoned ∧ (s.mapEntry 5).target = none)
      ∧ (base.mapEntry 5).state ≠ .poisoned ∧ (4 : Nat) ≠ 5 ∧ (1 : Fin 32) ≠ 0 := by decide +kernel

/-- Every step of a write-through and of an atomic WRITE of two folios; the three steps of a TRIM; the first and the last
folio; a DISCARD. -/
theorem test_witness_ProgrammingStepsRequest :
    (applyOf 0 .writeThrough 0 .between).kind = .writeThrough
      ∧ (let d := ((applying { desc .write 5 2 with atom := true } (applyOf 0 .writeAtomic 0 .between) base).slot 0).desc
         0 < d.count ∧ 0 < 1 ∧ 1 < d.count ∧ 2 = d.count ∧ d.count < 3 ∧ d.count < 4)
      ∧ ({ applyOf 0 .writeAtomic 3 .between with accepted := [0, 1] }.accepted = 0 :: [1] ∧ ([1] : List Nat) ≠ [])
      ∧ { applyOf 0 .writeAtomic 4 .between with accepted := [1] }.accepted = [1]
      ∧ (∀ i < 3, (applyOf 0 .trim i .between).kind = .trim ∧ (applyOf 0 .trim i .between).step = i
        ∧ (applyOf 0 .eraseAll i .between).kind = .eraseAll)
      ∧ (0 < 245760 ∧ 245759 < 245760)
      ∧ (applyOf 0 .discard 0 .between).kind = .discard
      ∧ (let s := ticketed 0 5 (dirtied 5 base)
         (∃ k, s.fc.ticket = some k ∧ k.line = 0 ∧ (s.line k.line).folio = k.folio) ∧ (s.line 0).state ≠ .invalid)
      ∧ base.fc.ticket = none := by
  refine ⟨rfl, by decide +kernel, by decide, by decide, by decide, by decide, rfl, ⟨⟨_, rfl, by decide +kernel⟩, ?_⟩, rfl⟩
  decide +kernel

/-! ### Witnesses: the media port -/

/-- An apply that has requested a program. -/
def requesting (s : State) : State := applying (desc .trim 5 1) (applyOf 0 .trim 1 (.forMedia (.prog (progOf 5 9)))) s

/-- `s` with a victim. -/
def victimed (v : Victim) (s : State) : State := { s with mm := { s.mm with victim := some v } }

/-- A copy of location 130. -/
def copy130 : Copy := { src := 130, prog := progOf 5 3 }

/-- The port closed in each way, and open; each engine as the first that is ready, and none; foreground reclaim before the
apply. -/
theorem test_witness_PortGrantFollowsTheOrder_order :
    ([porting .wbe (.read 0) base, mounting .start base, powered .doze base].Forall fun s =>
      s.AtRest ∧ (s.mm.port ≠ none ∨ s.mount ≠ none ∨ (s.pwr.state ≠ .active ∧ s.pwr.state ≠ .idle)))
      ∧ (let s := requesting (ticketed 0 5 base)
         s.AtRest ∧ s.mm.port = none ∧ s.mount = none ∧ s.pwr.state = .active ∧ s.frozen = false
           ∧ 3 ≤ (reclaimProgress s).freeCount ∧ (grantApply (reclaimProgress s)).isSome = true)
      ∧ (let s := ticketed 0 5 base
         s.AtRest ∧ grantApply (reclaimProgress s) = none ∧ (grantTicket (reclaimProgress s)).isSome = true)
      ∧ (let s := victimed { group := 2, pos := 2, copy := none } (mapped 130 base)
         s.AtRest ∧ grantApply (reclaimProgress s) = none ∧ grantTicket (reclaimProgress s) = none
           ∧ 3 ≤ (reclaimProgress s).freeCount ∧ (grantReclaim (reclaimProgress s)).isSome = true)
      ∧ (let s := { mapped 130 base with mm := { (mapped 130 base).mm with relocQueue := [130] } }
         s.AtRest ∧ grantApply (reclaimProgress s) = none ∧ grantTicket (reclaimProgress s) = none
           ∧ grantReclaim (reclaimProgress s) = none ∧ (grantRelocation (reclaimProgress s)).isSome = true)
      ∧ (grantApply (reclaimProgress base) = none ∧ grantTicket (reclaimProgress base) = none
        ∧ grantReclaim (reclaimProgress base) = none ∧ grantRelocation (reclaimProgress base) = none) := by decide +kernel

/-- Foreground reclaim with an operation ready. -/
theorem test_witness_PortGrantFollowsTheOrder_foreground :
    let s := victimed { group := 2, pos := 64, copy := none } (requesting (filled 4094 base))
    s.AtRest ∧ (reclaimProgress s).freeCount < 3 ∧ (grantReclaim (reclaimProgress s)).isSome = true := by decide +kernel

/-- A poisoned target that breaks the reservation that ends with it, and not the one that begins after it; nothing programmed. -/
theorem test_witness_ReadResultIsHandled_poison :
    (let t := poisonTarget 130 (reserved [rsv 1 2 4, rsv 2 6 4] (mapped 130 base))
     (t.rvt.entries, t.rvt.lost, t.ntc.evPending) = ([rsv 2 6 4], some { cause := .media, token := 1 }, 4))
      ∧ base.cell 130 = none := by decide +kernel

/-- Each kind of operation that is granted. -/
theorem test_witness_PortGrantFollowsTheOrder_operations :
    ((requesting base).csq.apply = some (applyOf 0 .trim 1 (.forMedia (.prog (progOf 5 9)))) ∧ (requesting base).frozen = false
        ∧ (requesting base).mm.hostOpen = some 1)
      ∧ (let s := { base with mm := { base.mm with hostOpen := none } }; (requesting s).mm.hostOpen = none)
      ∧ (let s := applying (desc .read 5 1) (applyOf 0 .read 0 (.forMedia (.direct 5))) (mapped 130 base)
         (s.mapEntry 5).state = .mapped ∧ (s.mapEntry 5).target = some 130)
      ∧ (ticketed 0 5 base).fc.ticket.isSome = true ∧ (ticketed 0 5 base).mm.hostOpen = some 1
      ∧ (victimed { group := 2, pos := 2, copy := some copy130 } base).mm.victim =
          some { group := 2, pos := 2, copy := some copy130 }
      ∧ base.mm.reclaimOpen = some 0
      ∧ (let v : Victim := { group := 2, pos := 2, copy := none }
         v.copy = none ∧ v.pos < 64 ∧ (mapped 130 base).cell (v.group * 64 + v.pos) = some (cellOf 5 3)
           ∧ (cellOf 5 3).metadata.kind = .data)
      ∧ (let v : Victim := { group := 2, pos := 64, copy := none }; v.copy = none ∧ 64 ≤ v.pos)
      ∧ (let s := { mapped 130 base with mm := { (mapped 130 base).mm with relocQueue := [130] } }
         s.mm.relocCopy = none ∧ s.mm.relocQueue = 130 :: [] ∧ s.validLoc 130 = true)
      ∧ { base.mm with relocCopy := some copy130 }.relocCopy = some copy130 := by decide +kernel

/-- What the port does not grant or answers without an operation: a held retry in a freeze (and one that is not held, which is
granted), a requested read whose folio is poisoned, empty roles, a note of a victim (copied without a read), an unlisted position. -/
theorem test_witness_PortGrantFollowsTheOrder_waits :
    (let a := applyOf 0 .trim 1 (.forMedia (.prog (progOf 5 9)))
     let s (b : Bool) := faulted 4 (applying (desc .trim 5 1) { a with heldRetry := b } base)
     (s true).frozen = true ∧ grantApply (s true) = none ∧ (grantApply (s false)).isSome = true)
      ∧ ([MediaReq.fill 0 5, .direct 5].Forall fun r =>
        let s := mapState .poisoned (withLine 0 (lineOf .filling 5) (applying (desc .read 5 1) (applyOf 0 .read 0 (.forMedia r)) base))
        (s.mapEntry 5).state ≠ .mapped ∧ (grantApply s).map (fun u => (u.csq.completions.map fun c => c.status, u.mm.port)) =
          some ([.unreadable], none))
      ∧ (let bare (s : State) : State := { s with mm := { s.mm with hostOpen := none, reclaimOpen := none } }
         grantTicket (bare (ticketed 0 5 base)) = none
           ∧ grantReclaim (bare (victimed { group := 2, pos := 2, copy := some copy130 } base)) = none
           ∧ grantRelocation (bare { base with mm := { base.mm with relocCopy := some copy130 } }) = none)
      ∧ (let note : Cell := { cellOf 5 3 with metadata := { dataMeta 5 3 with kind := .trimNote, count := 1 } }
         let s := victimed { group := 2, pos := 2, copy := none } { base with mm := { base.mm with flash := [(130, note)] } }
         s.cell 130 = some note ∧ (grantReclaim s).bind (fun u => u.mm.port.map fun o => o.op) =
           some (.program 0 { metadata := { note.metadata with copyMark := true }, data := [7], rotten := false }))
      ∧ base.mm.victim = none ∧ base.cell 130 = none ∧ base.mm.relocCopy = none ∧ base.mm.relocQueue = [] := by decide +kernel

/-- A read of location 130 for each requester; a full queue, a queued location; an entry that another location holds. -/
theorem test_witness_ReadResultIsHandled :
    (∀ c, (mapped 130 base).cell 130 = some c → c.rotten = true → ReadResult.clean = .uncorrectable)
      ∧ ([Wait.forMedia (.fill 0 5), .forMedia (.direct 5)].Forall fun w =>
        let s := porting .apply (.read 130) (applying (desc .read 5 1) (applyOf 0 .read 0 w) (mapped 130 base))
        s.PortRuns .apply (.read 130) ∧ s.csq.apply = some (applyOf 0 .read 0 w))
      ∧ (let s := porting .apply (.read 130) (applying (desc .prefetch 5 1) (applyOf 0 .prefetch 0 (.forMedia (.fill 0 5)))
            (mapped 130 base)); s.PortRuns .apply (.read 130))
      ∧ ([Requester.orphan, .relocation].Forall fun q => (porting q (.read 130) (mapped 130 base)).PortRuns q (.read 130))
      ∧ (mapped 130 base).cell 130 = some (cellOf 5 3)
      ∧ (let s := porting .reclaim (.read 130) (victimed { group := 2, pos := 2, copy := none } (mapped 130 base))
         s.PortRuns .reclaim (.read 130) ∧ s.mm.victim = some { group := 2, pos := 2, copy := none })
      ∧ (let s := { base with mm := { base.mm with relocQueue := List.range 15 } }
         s.mm.relocQueue.length < 16 ∧ 130 ∉ s.mm.relocQueue)
      ∧ (let s := mapState .mapped (mapped 131 base); s.cell 131 = some (cellOf 5 3)
          ∧ (s.mapEntry (cellOf 5 3).metadata.start).target ≠ some 131)
      ∧ ((mapped 130 base).mapEntry (cellOf 5 3).metadata.start).target = some 130
      ∧ ((mapped 130 base).mapEntry (cellOf 5 3).metadata.start).state = .mapped := by
  refine ⟨?_, ?_, ?_, ?_, by decide +kernel, ?_, by decide +kernel, by decide +kernel, by decide +kernel, by decide +kernel⟩
  · intro c h
    have : (mapped 130 base).cell 130 = some (cellOf 5 3) := by decide +kernel
    rw [this] at h
    cases h
    decide
  · exact ⟨⟨⟨by decide +kernel, 0, by decide +kernel⟩, by decide +kernel⟩, ⟨by decide +kernel, 0, by decide +kernel⟩, by decide +kernel⟩
  · exact ⟨by decide +kernel, 0, by decide +kernel⟩
  · exact ⟨⟨by decide +kernel, 0, by decide +kernel⟩, by decide +kernel, 0, by decide +kernel⟩
  · exact ⟨⟨by decide +kernel, 0, by decide +kernel⟩, by decide +kernel⟩

/-- A rotten copy read by reclaim; a step that is not the last and the last; corrected bits; a full queue and one that holds the
location. -/
theorem test_witness_ReadResultIsHandled_more :
    (let s := porting .reclaim (.read 130) (mapped 130 base)
     let t := { s with mm := { s.mm with flash := [(130, { cellOf 5 3 with rotten := true })] } }
     t.AtRest ∧ t.mm.port = some { req := .reclaim, op := .read 130, ticks := 0 } ∧ Requester.reclaim ≠ .mount
       ∧ t.cell 130 = some { cellOf 5 3 with rotten := true })
      ∧ (let s := applying (desc .read 5 2) (applyOf 0 .read 0 .between) base
         0 + 1 < (s.slot 0).desc.count ∧ (s.slot 0).desc.count ≤ 1 + 1)
      ∧ 0 < 1
      ∧ 16 ≤ ({ base with mm := { base.mm with relocQueue := List.range 16 } } : State).mm.relocQueue.length
      ∧ 130 ∈ ({ base with mm := { base.mm with relocQueue := [130] } } : State).mm.relocQueue := by decide +kernel

/-- The program of each kind of apply, of an atomic WRITE also for its note, and of a removed command; a position that is not
the last of its group and the last; a folio with a line, with an allocated one and with none. -/
theorem test_witness_ProgramLandsForItsStep :
    ([(desc .write 5 1, applyOf 0 .writeThrough 0 (.forMedia (.prog (progOf 5 9)))),
        (desc .trim 5 1, applyOf 0 .trim 1 (.forMedia (.prog (progOf 5 9)))),
        (desc .eraseAll 0 0, applyOf 0 .eraseAll 1 (.forMedia (.prog (progOf 5 9)))),
        (desc .write 5 2, applyOf 0 .writeAtomic 1 (.forMedia (.prog (progOf 5 9)))),
        (desc .write 5 2, { applyOf 0 .writeAtomic 2 (.forMedia (.prog (progOf 5 9))) with pendingLocs := [65, 66] })].Forall
      fun p => let s := porting .apply (.program 64 (progOf 5 9)) (applying p.1 p.2 base)
        s.AtRest ∧ s.mm.port = some { req := .apply, op := .program 64 (progOf 5 9), ticks := 0 } ∧ s.csq.apply = some p.2)
      ∧ (base.mapEntry 5).seq.toNat < (progOf 5 9).metadata.seq.toNat
      ∧ ¬((mapped 130 base).mapEntry 5).seq.toNat < (progOf 5 3).metadata.seq.toNat
      ∧ (porting .orphan (.program 64 (progOf 5 9)) base).AtRest
      ∧ 127 % 64 = 63 ∧ (base.group (127 / 64)).state = .opened ∧ 126 % 64 ≠ 63
      ∧ (allDirty base).findLine 5 = none ∧ (allDirty base).allocLine = none
      ∧ (dirtied 5 base).findLine 5 = some 0 ∧ base.findLine 5 = none ∧ base.allocLine = some 0
      ∧ (let s := applying (desc .write 5 2) { applyOf 0 .writeAtomic 2 .between with pendingLocs := [65, 66] } base
         [65, 66].length = (s.slot 0).desc.count ∧ [65, 66][1]? = some 66
           ∧ ((s.mapEntry 5).seq.toNat < (1 : Word).toNat)) := by decide +kernel

/-- A program of every requester; an operation below and at the limit, of each kind. -/
theorem test_witness_FailuresRetireTheirGroups :
    ([Requester.wbe, .apply, .reclaim, .relocation, .orphan].Forall fun q =>
      (porting q (.program 64 (progOf 5 9)) base).AtRest
        ∧ (porting q (.program 64 (progOf 5 9)) base).mm.port = some { req := q, op := .program 64 (progOf 5 9), ticks := 0 })
      ∧ ([stalling .wbe (.program 64 (progOf 5 9)) base,
          stalling .apply (.program 64 (progOf 5 9)) (applying (desc .write 5 1)
            (applyOf 0 .writeThrough 0 (.forMedia (.prog (progOf 5 9)))) base),
          stalling .reclaim (.erase 2) base, stalling .reclaim (.read 130) base,
          stalling .orphan (.program 64 (progOf 5 9)) base, faulted 8 (stalling .wbe (.program 64 (progOf 5 9)) base)].Forall fun s =>
        s.AtRest ∧ s.ticking = true ∧ ∃ o, s.mm.port = some o ∧ 400 ≤ o.ticks)
      ∧ ([MediaOp.read 0, .erase 0].Forall fun op =>
        let s := mounting .start (stalling .mount op base)
        s.AtRest ∧ s.ticking = true ∧ ∃ o, s.mm.port = some o ∧ 400 ≤ o.ticks)
      ∧ (porting .wbe (.read 0) base).mm.port.isSome = true ∧ 399 < 400 := by
  refine ⟨by decide +kernel, ⟨?_, ?_, ?_, ?_, ?_, ?_⟩, ⟨?_, ?_⟩, by decide +kernel, by decide⟩ <;>
    exact ⟨by decide +kernel, by decide +kernel, _, rfl, by decide⟩

/-- A position that is not the last of its group and the last one of an OPEN group; F4 outstanding after the treatment, and
not. -/
theorem test_witness_FailuresRetireTheirGroups_more :
    64 % 64 ≠ 63 ∧ 127 % 64 = 63 ∧ (base.group (127 / 64)).state = .opened
      ∧ (failProgram .stall 64 (progOf 5 9) (faulted 8 base)).ntc.outstanding .f4 = true
      ∧ (failProgram .stall 64 (progOf 5 9) base).ntc.outstanding .f4 = false := by decide +kernel

/-! ### Witnesses: the Writeback Engine, reclaim, relocation -/

/-- `s` with the draining indication on. -/
def draining (s : State) : State := { s with fc := { s.fc with draining := true } }

/-- A lost line leaves the dirty list with its mark and its triples; a failed erase with the defect list full and with room. -/
theorem test_witness_TicketIsCapturedAndSettled_lost :
    (let s := withLine 0 { lineOf .dirty 5 with purgeMark := some 1 } (ticketed 0 5 (reserved [rsv 1 5 1] (dirtied 5 base)))
     let s := withSlot 2 { slotOf .settling (desc .flush 0 0) with triples := [{ line := 0, folio := 5, version := 1 }] } s
     let t := dirtyLineError 0 s
     (t.fc.dirtyList, (t.line 0).purgeMark, (t.line 0).voidTicket, (t.slot 2).triples, t.rvt.lost, t.ntc.faults) =
       ([], none, true, [], some { cause := .media, token := 1 }, 8))
      ∧ (let s (n : Nat) : State := { base with mm := { base.mm with
            defects := (List.range n).map fun g => { group := g, origin := .factory } } }
         (failErase 2 .eraseFail (s 255)).mm.defects.length = 256 ∧ (failErase 2 .eraseFail (s 256)).mm.defects.length = 256) := by
  decide +kernel

/-- A capture that may happen, with a line and with an empty list, and one that may not; a ticket whose program completes; a
voided ticket and one that is not, with its line unchanged, with a purge mark, and rewritten. -/
theorem test_witness_TicketIsCapturedAndSettled :
    (let s := draining (dirtied 5 base)
     s.AtRest ∧ s.wbeRuns = true ∧ s.fc.ticket = none ∧ s.frozen = false ∧ s.mount = none
       ∧ (s.pwr.state = .active ∨ s.pwr.state = .idle) ∧ s.fc.dirtyList = 0 :: [])
      ∧ (dirtied 5 base).AtRest ∧ (dirtied 5 base).wbeRuns = false ∧ base.fc.dirtyList = []
      ∧ (let s := porting .wbe (.program 64 (progOf 5 5)) (ticketed 0 5 base)
         s.AtRest ∧ s.mm.port = some { req := .wbe, op := .program 64 (progOf 5 5), ticks := 0 } ∧ s.fc.ticket.isSome = true)
      ∧ ({ lineOf .dirty 5 with voidTicket := true }.voidTicket = true ∧ (lineOf .dirty 5).voidTicket = false)
      ∧ (let s := ticketed 0 5 (dirtied 5 base)
         (s.line 0).folio = 5 ∧ (s.line 0).state = .dirty ∧ (s.line 0).version = 1 ∧ (s.line 0).purgeMark = none
           ∧ (s.mapEntry 5).seq.toNat < (5 : Word).toNat)
      ∧ { lineOf .dirty 5 with purgeMark := some 3 }.purgeMark = some 3
      ∧ (let s := ticketed 0 5 (dirtied 6 base); (s.line 0).state = .dirty ∧ (s.line 0).folio ≠ 5)
      ∧ (let s := ticketed 0 5 (withLine 9 { lineOf .clean 5 with version := 2 } base)
         s.findLine 5 = some 9 ∧ (s.line 9).state = .clean ∧ (s.line 9).version ≠ 1) := by decide +kernel

/-- `mapped 130` with group 2 in a state. -/
def group2 (st : GroupState) : State :=
  { mapped 130 base with mm := { (mapped 130 base).mm with
      groups := [(0, opened), (1, opened), (2, { groupIn st with origin := some .programFail, nextFree := 3 })] } }

/-- `s` with a reason for reclaim to be active. -/
def filling (s : State) : State := { s with mm := { s.mm with reclaimFill := true } }

theorem test_witness_ReclaimAndRelocationComplete_choice :
    (let s := group2 .retiring
     s.AtRest ∧ s.mm.victim = none ∧ s.frozen = false ∧ s.mount = none ∧ s.pwr.state = .idle
       ∧ s.groupsIn .retiring ≠ [] ∧ s.pickVictim = some 2 ∧ s.StoresSound ∧ 2 ∈ s.groupsIn .retiring
       ∧ s.holdsPending 2 = false ∧ ∀ h ∈ s.groupsIn .retiring, s.holdsPending h = false → 2 ≤ h)
      ∧ (base.AtRest ∧ base.mm.victim = none ∧ ¬(base.freeCount < 3 ∨ base.mm.reclaimFill = true
        ∨ base.groupsIn .retiring ≠ []))
      ∧ (let s := filling (group2 .full)
         s.mm.reclaimFill = true ∧ s.pickVictim = some 2 ∧ s.StoresSound
           ∧ (∀ h ∈ s.groupsIn .retiring, s.holdsPending h = true)
           ∧ (s.group 2).state = .full ∧ s.fullQualifies 2 = true) := by decide +kernel

/-- The validity of R122: a current target, a pending folio, a live note, and none of them; the victims of R124 with none. -/
theorem test_witness_ReclaimAndRelocationComplete_validity :
    (let x : Cell := { cellOf 5 9 with metadata := { dataMeta 5 9 with kind := .tentative, base := 9 } }
     let s := applying (desc .write 7 1) { applyOf 0 .writeAtomic 1 .between with pendingLocs := [133] } (group2 .full)
     let s := { s with mm := { s.mm with
        flash := [(130, x), (131, cellOf 5 10), (132, cellOf 6 1), (133, cellOf 7 1)]
        commitNotes := [{ start := 5, count := 1, base := 9, seq := 10, loc := 131 }] } }
     s.StoresSound ∧ (∀ p ∈ s.mm.map.items, p.1 < 245760) ∧ [130, 131, 132, 133].map s.validLoc = [true, true, false, true]
       ∧ s.validCount 2 = 3 ∧ s.holdsPending 2 = true ∧ s.holdsTentativeTarget 2 = true ∧ s.fullQualifies 2 = false
       ∧ s.pickVictim = none) := by decide +kernel

/-- The completions of reclaim and relocation, with and without the folio still at the source. -/
theorem test_witness_ReclaimAndRelocationComplete_ends :
    (let s := porting .reclaim (.program 0 (progOf 5 3)) (victimed { group := 2, pos := 2, copy := some copy130 } (group2 .full))
     s.AtRest ∧ s.mm.port = some { req := .reclaim, op := .program 0 (progOf 5 3), ticks := 0 }
       ∧ s.mm.victim = some { group := 2, pos := 2, copy := some copy130 })
      ∧ (let s := porting .reclaim (.erase 2) (victimed { group := 2, pos := 64, copy := none } (group2 .full))
         s.AtRest ∧ s.mm.port = some { req := .reclaim, op := .erase 2, ticks := 0 } ∧ s.mm.defects.length < 256)
      ∧ (let s := porting .relocation (.program 0 (progOf 5 3)) { mapped 130 base with
            mm := { (mapped 130 base).mm with relocCopy := some copy130 } }
         s.AtRest ∧ s.mm.port = some { req := .relocation, op := .program 0 (progOf 5 3), ticks := 0 }
           ∧ s.mm.relocCopy = some copy130 ∧ s.cell copy130.src = some (cellOf 5 3)
           ∧ (cellOf 5 3).metadata.seq = copy130.prog.metadata.seq)
      ∧ base.cell copy130.src = none ∧ (mapped 130 base).StoresSound
      ∧ ((mapped 130 base).mapEntry 5).target = some 130 := by decide +kernel

/-- Group 2 as the victim, its one folio at position 2, or none; with an erase count. -/
def victim2 (pos : Nat) (x : Group) (flash : List (Nat × Cell)) : State :=
  let s := victimed { group := 2, pos := pos, copy := none } (group2 .full)
  { s with mm := { s.mm with flash := flash, groups := [(0, opened), (1, opened), (2, x)] } }

/-- A victim with a copy; one whose valid folio lies ahead, one whose valid folio was passed over, and one without, RETIRING,
at the endurance limit and below it. -/
theorem test_witness_ReclaimAndRelocationComplete_progress :
    base.mm.victim = none ∧ { (⟨2, 2, none⟩ : Victim) with copy := some copy130 }.copy ≠ none
      ∧ (let s := victim2 0 (groupIn .full) [(130, cellOf 5 3)]
         s.StoresSound ∧ s.mm.victim = some ⟨2, 0, none⟩ ∧ s.cell 130 ≠ none ∧ s.validLoc 130 = true
           ∧ ∀ r < 2, s.cell (128 + r) = none)
      ∧ (let s := victim2 3 (groupIn .full) [(130, cellOf 5 3)]
         s.StoresSound ∧ s.mm.victim = some ⟨2, 3, none⟩ ∧ s.validLoc 130 = true
           ∧ ∀ r < 64, 3 ≤ r → s.cell (128 + r) = none)
      ∧ ([{ groupIn .retiring with origin := some .stall }, { groupIn .full with erases := 3000 },
          { groupIn .full with erases := 2999 }].Forall fun x =>
        let s := victim2 0 x []
        s.StoresSound ∧ s.mm.victim = some ⟨2, 0, none⟩ ∧ (∀ r < 64, s.cell (128 + r) = none) ∧ s.group 2 = x) := by
  decide +kernel

/-! ### Witnesses: mount -/

/-- A mount at its metadata read of `loc`, with folio 5 programmed at 130. -/
def scanning (loc : Loc) (c : Cell) : State :=
  let s := mounting .start (porting .mount (.read loc) (mapped 130 base))
  { s with mm := { s.mm with flash := [(loc, c)] }, pwr := { s.pwr with state := .mounting } }

/-- A mount in its resolution. -/
def resolving (scanned : List (Loc × ScanClass)) (error : Option Loc) (s : State) : State :=
  mounting { Mount.start with phase := .resolution, scanned := scanned, firstMetaError := error } s

/-- An erased position; a torn, a complete and a complete unreadable one, the last of its group and not; a re-erase. -/
theorem test_witness_MountScansThenResolves_scan :
    (let s := { scanning 130 (cellOf 5 3) with mm := { (scanning 130 (cellOf 5 3)).mm with flash := [] } }
     s.AtRest ∧ s.mm.port = some { req := .mount, op := .read 130, ticks := 0 } ∧ s.cell 130 = none)
      ∧ ([127, 130].Forall fun loc => [true, false].Forall fun ok =>
        let s := scanning loc { cellOf 5 3 with complete := ok }
        s.AtRest ∧ s.mm.port = some { req := .mount, op := .read loc, ticks := 0 }
          ∧ s.cell loc = some { cellOf 5 3 with complete := ok })
      ∧ (let s := scanning 130 { cellOf 5 3 with metaLost := true }
         s.AtRest ∧ s.cell 130 = some { cellOf 5 3 with metaLost := true })
      ∧ 130 % 64 < 63 ∧ ¬127 % 64 < 63
      ∧ (let s := mounting .start (porting .mount (.erase 2) base)
         s.AtRest ∧ s.mm.port = some { req := .mount, op := .erase 2, ticks := 0 }) := by decide +kernel

/-- The end of a mount: in the scan, in the resolution, without a mount; with a first metadata error, alone and with F3 or F4
pending; with a reserve at each threshold. -/
theorem test_witness_MountScansThenResolves_end :
    ((mounting .start base).AtRest ∧ Mount.start.phase = .scan)
      ∧ (let s := resolving [(130, .complete)] none (mapped 130 base)
         s.AtRest ∧ s.csq.apply = none ∧ s.mount.map (fun m => (m.phase, m.fullGroups)) = some (.resolution, [])
           ∧ s.StoresSound ∧ (∀ p ∈ s.mm.groups, p.1 < 4096) ∧ s.mm.port = none)
      ∧ (let s := resolving [(130, .metadataError)] (some 130) (mapped 130 base)
         s.AtRest ∧ s.mount.bind (fun m => m.firstMetaError) = some 130 ∧ s.StoresSound
           ∧ s.ntc.outstanding .f3 = false ∧ s.ntc.outstanding .f4 = false
           ∧ (faulted 8 s).ntc.pendingFault .f4 = true ∧ (faulted 8 s).AtRest
           ∧ (faulted 4 s).ntc.pendingFault .f3 = true ∧ (faulted 4 s).ntc.outstanding .f4 = false ∧ (faulted 4 s).AtRest)
      ∧ base.AtRest ∧ base.mount = none
      ∧ (retired 232).reserve = 24 ∧ (retired 252).reserve = 4
      ∧ (after .mountEnd (resolving [] none (retired 232))).map (fun u => u.reserve) = some 24
      ∧ (after .mountEnd (resolving [] none (retired 252))).map (fun u => u.reserve) = some 4 := by decide +kernel

/-- The groups with which a mount goes on: the next one and none, with and without a scanned position, RETIRING and not; the
first and the last group. -/
theorem test_witness_MountScansThenResolves_groups :
    ((retired 4095).StoresSound ∧ ((retired 4095).group 4095).state ≠ .retired
        ∧ ∀ h, 0 ≤ h → h < 4095 → ((retired 4095).group h).state = .retired)
      ∧ ((retired 4096).StoresSound ∧ ∀ g, 0 ≤ g → g < 4096 → ((retired 4096).group g).state = .retired)
      ∧ (base.group 1).state ≠ .retired ∧ 0 < 64 ∧ (base.group 0).state ≠ .retiring
      ∧ ((group2 .retiring).group 2).state = .retiring := by
  refine ⟨⟨retired_stores _, by decide +kernel, fun h _ hh => retired_group _ h hh⟩,
    ⟨retired_stores _, fun g _ hg => retired_group _ g hg⟩, by decide +kernel, by decide, by decide +kernel, by decide +kernel⟩

/-- A mount without a contributed value, and with a greatest one; FULL, FREE and no FREE groups. -/
theorem test_witness_MountScansThenResolves_values :
    (let s := resolving [(130, .complete)] none (mapped 130 base)
     (s.completeCells { Mount.start with scanned := [(130, .complete)] }) = [(130, cellOf 5 3)] ∧ s.cell 130 = some (cellOf 5 3))
      ∧ (base.group 0).state = .opened ∧ (base.group 2).state = .free ∧ 2 ∈ ({ Mount.start with fullGroups := [2] }).fullGroups
      ∧ (after .mountEnd (resolving [] none (retired 4095))).map (fun u => (u.mm.reclaimOpen, u.mm.hostOpen)) =
        some (some 4095, none)
      ∧ (after .mountEnd (resolving [] none (retired 4093))).map (fun u => (u.mm.reclaimOpen, u.mm.hostOpen)) =
        some (some 4093, some 4094) := by decide +kernel

/-- A folio without a candidate, and the best of a DATA, a TRIM_NOTE and a committed tentative candidate. -/
theorem test_witness_MountScansThenResolves_map :
    let all : List (Loc × Cell) :=
      [(64, cellOf 5 3), (65, { cellOf 5 4 with metadata := { dataMeta 4 4 with kind := .trimNote, count := 3 } }),
       (66, { cellOf 5 9 with metadata := { dataMeta 5 9 with kind := .tentative, base := 9 } }),
       (67, { cellOf 5 10 with metadata := { dataMeta 5 10 with kind := .commitNote, count := 1, base := 9 } })]
    (all.map fun p => p.1).Nodup ∧ 0 < 245760 ∧ 245759 < 245760
      ∧ (resolvedMap all).entry 245759 = { state := .never, target := none, seq := 0 }
      ∧ (resolvedMap all).entry 4 = { state := .trimmed, target := some 65, seq := 4 }
      ∧ (resolvedMap all).entry 6 = { state := .trimmed, target := some 65, seq := 4 }
      ∧ (resolvedMap all).entry 5 = { state := .mapped, target := some 66, seq := 9 } := by decide +kernel

/-! ### Witnesses: power and time -/

/-- A SLEEP in slot 0 that waits. -/
def sleeping : State := applying (desc .sleep 0 0) (applyOf 0 .sleep 0 .forSleep) base

/-- A SLEEP that is not ready (a DIRTY line, a freeze, an older slot), one that is skipped and one that is not; DOZE due; WAKING
with and without a power-up. -/
theorem test_witness_PowerStatesAreEntered :
    ([dirtied 5 sleeping, faulted 2 sleeping, sleeping, withSlot 1 (slotOf .queued (desc .read 5 1)) sleeping].Forall fun s =>
      s.AtRest ∧ s.csq.apply = some (applyOf 0 .sleep 0 .forSleep))
      ∧ (dirtied 5 sleeping).dirtyCount ≠ 0 ∧ (faulted 2 sleeping).frozen = true
      ∧ (ticketed 0 5 sleeping).fc.ticket.isSome = true ∧ ((ticketed 0 5 sleeping).line 0).voidTicket = false
      ∧ (ticketed 0 5 sleeping).AtRest
      ∧ (let s := porting .wbe (.program 64 (progOf 5 5)) (ticketed 0 5
            (withLine 0 { lineOf .invalid 5 with voidTicket := true } sleeping))
         s.AtRest ∧ (s.line 0).voidTicket = true
           ∧ s.mm.port = some { req := .wbe, op := .program 64 (progOf 5 5), ticks := 0 })
      ∧ sleeping.fc.ticket = none
      ∧ (sleeping.dirtyCount = 0 ∧ sleeping.frozen = false ∧ ∀ m : Fin 8, m ≠ 0 → (sleeping.slot m).state = .free)
      ∧ (let s := withSlot 1 (slotOf .queued (desc .read 5 1)) sleeping
         1 ∈ s.younger 0 ∧ (s.slot 1).state = .queued)
      ∧ (let s : State := { base with pwr := { base.pwr with intent := true } }; s.due = some .dozeEntry)
      ∧ (let s := powered .waking { base with pwr := { base.pwr with powerUp := some 0 } }
         s.AtRest ∧ s.pwr.state = .waking ∧ s.pwr.powerUp.isSome = true)
      ∧ base.AtRest ∧ base.pwr.state ≠ .waking := by decide +kernel

/-- The states in which the tick does not run; each special tick; each timer below and at its limit. -/
theorem test_witness_TickWorksInOrder :
    (base.AtRest ∧ base.rst.portReset = false ∧ base.rst.inReset = none
        ∧ ¬(base.pwr.state = .sleep ∧ base.pwr.mediaOn = false))
      ∧ (held.AtRest ∧ held.rst.portReset = true)
      ∧ (let s : State := { base with pwr := { base.pwr with state := .sleep, mediaOn := false } }
         s.AtRest ∧ s.pwr.state = .sleep ∧ s.pwr.mediaOn = false)
      ∧ (withNtc (ntcOf 0 0 1 0)).ntc.quiet = 1 ∧ (withNtc (ntcOf 0 0 4095 0)).ntc.quiet ≠ 0 ∧ base.ntc.quiet = 0
      ∧ (CoalesceTimer.limit { elapsed := 254, limit := 255 } ≤ 254 + 1) ∧ 0 + 1 < 255
      ∧ (let s : State := { base with pwr := { base.pwr with dozeDelay := 1, idleTimer := 99 } }
         s.AtRest ∧ s.pwr.state = .idle ∧ s.pwr.intent = false ∧ 0 < s.pwr.dozeDelay.toNat
           ∧ s.pwr.dozeDelay.toNat * 100 ≤ min 25500 (s.pwr.idleTimer + 1))
      ∧ (let s := powered .waking { base with pwr := { base.pwr with powerUp := some 400 } }
         s.AtRest ∧ s.pwr.powerUp = some 400)
      ∧ ((inPhase 1).bufOf 0 = some .tb0 ∧ 0 < ((inPhase 1).buf .tb0).words.length ∧ ((inPhase 1).slot 0).state = .loading)
      ∧ ((inPhase 1).buf .tb1).holder = none
      ∧ ([BufId.tb0, .tb1].Forall fun b =>
        let s := setBuf b { holder := some 0, words := List.replicate 256 9, consumed := 9 }
          (withSlot 0 (slotOf .unloading (desc .read 0 1)) base)
        s.bufOf 0 = some b ∧ (s.slot 0).state = .unloading ∧ s.dp.owner ≠ some 0 ∧ (owned 0 s).dp.owner = some 0
          ∧ (s.buf b).consumed ≤ 9 ∧ 8 < (s.buf b).consumed ∧ 255 < (s.buf b).words.length
          ∧ (s.buf b).words.length ≤ 256)
      ∧ (let s := withBuf 0 [9] 0 (withSlot 0 (slotOf .queued (desc .read 0 1)) base)
         s.bufOf 0 = some .tb0 ∧ (s.slot 0).state ∉ [.loading, .loaded, .unloading]) := by decide +kernel

/-! ### One step of each command -/

/-- `f` of the state that a command leaves. -/
def sees {α : Type} (c : Instr) (s : State) (f : State → α) : Option α := (after c s).map f

/-- R4: SELn falls; the type byte is next. -/
theorem test_frame_start : sees .frameStart base (fun t => t.hpi.phase) = some .typeByte := by decide +kernel

/-- R5: len 255 requests 256 words. -/
theorem test_frame_type_decode :
    sees (.frameTypeDecode 0xA2 0x100 255) { base with hpi := { base.hpi with selected := true, phase := .typeByte } }
      (fun t => (t.hpi.frame, t.hpi.nextAddr, t.hpi.wordsDue)) = some (some .writeBurst, 0x100, 256) := by decide +kernel

/-- R4, Table 1-2: a type byte 0x00 is a BAD_FRAME reject (reason 10). -/
theorem test_frame_type_decode_bad :
    sees (.frameTypeDecode 0x00 0 0) { base with hpi := { base.hpi with selected := true, phase := .typeByte } }
      (fun t => (t.readReg .rejectLog, t.hpi.phase)) = some (0x10A, .discarding) := by decide +kernel

/-- Table 12-2: IDLE is 4. -/
theorem test_state_poll :
    sees .statePoll { base with hpi := { base.hpi with phase := .header, frame := some .statePoll, wordsDue := 1 } }
      (fun t => t.hpi.sdo) = some (.bits 4) := by decide +kernel

/-- R4: after the STATE POLL word SDO carries 0. -/
theorem test_state_poll_past_last :
    sees .statePoll { base with hpi := { base.hpi with phase := .data, frame := some .statePoll, sdo := .bits 4 } }
      (fun t => t.hpi.sdo) = some .low := by decide +kernel

/-- R3, R5: bits clocked past the last word of a read burst are 0, and no access is made. -/
theorem test_read_word_capture_past_last :
    sees (.readWordCapture false) (pastLast base) (fun t => (t.hpi.sdo, t.hpi.captured, t.hpi.nextAddr)) =
      some (.low, none, 4) := by decide +kernel

/-- R184: DEVICE_ID. -/
theorem test_read_word_capture :
    sees (.readWordCapture false) (reading 0x00 base) (fun t => (t.hpi.sdo, t.hpi.nextAddr)) = some (.bits 0x256, 1) := by
  decide +kernel

/-- R7: a captured word that had not completed has no effect. -/
theorem test_frame_end :
    sees .frameEnd (owing 0x24 (.pushClaim 3) base) (fun t => (t.ntc.level, t.hpi.captured, t.hpi.sdo)) =
      some (0, none, .highZ) := by decide +kernel

/-- R149: EV_ENABLE takes nine bits. -/
theorem test_register_write :
    sees (.registerWrite 0x21 0x1FF) (writing 0x21 base) (fun t => t.ntc.evEnable) = some 0x1FF := by decide +kernel

/-- R15: CLR empties REJECT_LOG. -/
theorem test_reject_log_clear :
    sees (.rejectLogClear 0x10) (reject .badCount 1 2 (writing 0x05 base)) (fun t => t.readReg .rejectLog) = some 0 := by
  decide +kernel

/-- R18: a staging word keeps its contents. -/
theorem test_cd_write :
    sees (.cdWrite 3 0xDEADBEEF) (writing 0x0B base) (fun t => t.readReg (.cd 3)) = some 0xDEADBEEF := by decide +kernel

/-- R22, R33: an accepted READ is QUEUED and holds TB0. -/
theorem test_submit :
    sees (.submit 7) (submitting 0x0101 5 0) (fun t => (t.csq.runQueue, t.bufOf 7, (t.slot 7).desc.folio)) =
      some ([7], some .tb0, 5) := by decide +kernel

/-- R21: a count of 0 is BAD_COUNT (reason 6), with the slot as target and the cmd code. -/
theorem test_submit_rejected :
    sees (.submit 7) (submitting 0x0001 5 0) (fun t => t.readReg .rejectLog) = some 0x07010106 := by decide +kernel

/-- R42: an APPLYING slot only remembers its abort. -/
theorem test_abort :
    sees (.abort 0) (writing 0x0D (applying (desc .read 5 1) readApply base))
      (fun t => ((t.slot 0).state, (t.slot 0).lateAbort)) = some (.applying, true) := by decide +kernel

/-- R40: the head's slot is FREE and leaves the run queue. -/
theorem test_retire :
    sees (.retire 0) (writing 0x15 (withDone [3, 0] base)) (fun t => (t.csq.runQueue, (t.slot 3).state)) =
      some ([0], .free) := by decide +kernel

/-- R49: the last word makes the WRITE LOADED, and its start follows in the next due step. -/
theorem test_data_port_write :
    sees (.dataPortWrite 0x1FF 5) (writing 0x1FF (inPhase 255)) (fun t => ((t.slot 0).state, t.dp.owner)) =
      some (.loaded, none) := by decide +kernel

/-- R50: the last word ends the READ with one folio done. -/
theorem test_data_port_read :
    sees .dataPortRead (owing 0x100 .consumeWord (outPhase 255)) (fun t => ((t.slot 0).state, (t.slot 0).foliosDone)) =
      some (.done, 1) := by decide +kernel

/-- R27: the READ that is due is APPLYING. -/
theorem test_read : sees .read (starting (desc .read 5 1)) (fun t => (t.slot 0).state) = some .applying := by decide +kernel

/-- R55: a bad buffer raises F4 and ends the WRITE with BUFFER_ERROR. -/
theorem test_write_cached :
    sees (.writeCached true) (startingWrite (desc .write 5 1)) (fun t => (t.ntc.faults, (t.slot 0).status)) =
      some (8, .bufferError) := by decide +kernel

/-- R64: THRU makes the path write-through, and a serializing apply holds the sequencer (R31). -/
theorem test_write_through :
    sees (.writeThrough false) (startingWrite { desc .write 5 1 with thru := true })
      (fun t => t.readReg .cqStatus &&& 0x1F00) = some 0x1100 := by decide +kernel

/-- R105: a conditional WRITE without its reservation ends with COND_FAIL. -/
theorem test_write_atomic :
    sees (.writeAtomic false) (startingWrite { desc .write 5 1 with atom := true, cond := true, token := 3 })
      (fun t => ((t.slot 0).status, t.csq.apply)) = some (.condFail, none) := by decide +kernel

/-- R58: a TRIM breaks the overlapping reservation, with cause 3 (Table 6-2, Table 6-3). -/
theorem test_trim :
    sees .trim (reserved [rsv 9 0 6] (starting (desc .trim 5 1))) (fun t => (t.rvt.entries, t.readReg .rsvLost)) =
      some ([], 0x309) := by decide +kernel

/-- R27. -/
theorem test_prefetch :
    sees .prefetch (starting (desc .prefetch 5 1)) (fun t => t.csq.apply.map fun a => a.kind) = some (some .prefetch) := by
  decide +kernel

/-- R58: a DISCARD breaks reservations with cause 4. -/
theorem test_discard :
    sees .discard (reserved [rsv 9 5 1] (starting (desc .discard 5 1))) (fun t => t.readReg .rsvLost) = some 0x409 := by
  decide +kernel

/-- R72: a CLEAN waits for the DIRTY lines of its range and counts them. -/
theorem test_clean :
    sees .clean (dirtied 5 (starting (desc .clean 5 1))) (fun t => ((t.slot 0).state, (t.slot 0).foliosDone)) =
      some (.settling, 1) := by decide +kernel

/-- R29, R72: a FLUSH with no DIRTY line is DONE at once. -/
theorem test_flush :
    sees .flush (starting (desc .flush 0 0)) (fun t => ((t.slot 0).state, (t.slot 0).detail)) = some (.done, 0) := by
  decide +kernel

/-- R74: a PURGE marks a DIRTY line. -/
theorem test_purge :
    sees .purge (dirtied 5 (starting (desc .purge 5 1))) (fun t => ((t.line 0).purgeMark, (t.slot 0).foliosDone)) =
      some (some 0, 1) := by decide +kernel

/-- R76: a SYNC with only DONE slots before it is DONE. -/
theorem test_sync : sees .sync (starting (desc .sync 0 0)) (fun t => (t.slot 0).state) = some .done := by decide +kernel

/-- R77, Table 4-2: word 3 is the number of folios. -/
theorem test_describe :
    sees .describe (starting (desc .describe 0 1)) (fun t => (t.dp.tb0.words[3]?, t.dp.tb0.words.length)) =
      some (some 245760, 256) := by decide +kernel

/-- R133, Table 4-3: with no group lost the reserve, word 4, is 4096 - 3840; 4094 groups are FREE (word 7). -/
theorem test_health_counters :
    sees .healthCounters (starting (desc .health 0 1)) (fun t => (t.dp.tb0.words[4]?, t.dp.tb0.words[7]?)) =
      some (some 256, some 4094) := by decide +kernel

/-- R80: an entry has bit 31, its origin and its group. -/
theorem test_health_defect_list :
    sees .healthDefectList
      (let s := starting { desc .health 0 1 with aux := 1 }
       { s with mm := { s.mm with defects := [{ group := 0xABC, origin := .wear }] } })
      (fun t => t.dp.tb0.words.head?) = some (some 0x80030ABC) := by decide +kernel

/-- R81: a SLEEP counts the DIRTY lines. -/
theorem test_sleep :
    sees .sleep (dirtied 5 (starting (desc .sleep 0 0))) (fun t => (t.slot 0).detail) = some 1 := by decide +kernel

/-- R58: read-only mode ends an ERASE_ALL with WRITE_PROTECTED. -/
theorem test_erase_all :
    sees .eraseAll (readOnly (starting (desc .eraseAll 0 0))) (fun t => (t.slot 0).status) = some .writeProtected := by
  decide +kernel

/-- R61: a folio that was never written reads as 256 words of 0, with UNMAPPED. -/
theorem test_apply_step :
    sees (.applyStep false) (withBuf 0 [] 0 (applying (desc .read 5 1) readApply base))
      (fun t => (t.dp.tb0.words == List.replicate 256 0, (t.slot 0).flags.unmapped, (t.slot 0).state)) =
      some (true, true, .unloading) := by decide +kernel

/-- R66: the step that waited writes its line. -/
theorem test_line_wait_end :
    sees .lineWaitEnd (withBuf 0 (List.replicate 256 9) 0 waitingLine) (fun t => ((t.line 0).state, (t.slot 0).state)) =
      some (.dirty, .done) := by decide +kernel

/-- R123: with 3 FREE groups the note of a TRIM is requested. -/
theorem test_reclaim_foreground_end :
    sees .reclaimForegroundEnd (applying (desc .trim 5 1) (applyOf 0 .trim 1 .forReclaim) base)
      (fun t => t.mm.seq) = some 2 := by decide +kernel

/-- R121, R135: the program of an apply goes to the next free position of the host open group. -/
theorem test_media_port_grant :
    sees .mediaPortGrant (requesting base) (fun t => t.mm.port) =
      some (some { req := .apply, op := .program 64 (progOf 5 9), ticks := 0 }) := by decide +kernel

/-- R125 step 2: a folio that was passed over and is valid now is copied before the victim is erased. -/
theorem test_media_port_grant_second_pass :
    sees .mediaPortGrant (victim2 64 (groupIn .full) [(130, cellOf 5 3)]) (fun t => t.mm.port) =
      some (some { req := .reclaim, op := .read 130, ticks := 0 }) := by decide +kernel

/-- R126, R127: 29 corrected bits offer the location to relocation, and are counted (R79). -/
theorem test_media_read_complete :
    sees (.mediaReadComplete (.corrected 29)) (porting .orphan (.read 130) (mapped 130 base))
      (fun t => (t.mm.relocQueue, t.mm.health.correctedBits)) = some ([130], 29) := by decide +kernel

/-- R69, R113: a note that landed leaves a complete position, and its TRIM goes on with the unmapping. -/
theorem test_media_program_complete :
    sees .mediaProgramComplete (porting .apply (.program 64 (progOf 5 9)) (requesting base))
      (fun t => ((t.cell 64).map fun c => c.complete, t.csq.apply.map fun a => (a.step, a.noteLoc))) =
      some (some true, some (2, some 64)) := by decide +kernel

/-- R129: the group of a failed program is RETIRING. -/
theorem test_program_fail :
    sees .programFail (porting .wbe (.program 64 (progOf 5 9)) (ticketed 0 5 base))
      (fun t => ((t.group 1).state, t.mm.hostOpen, t.ntc.pendingEvent .media)) = some (.retiring, some 2, true) := by
  decide +kernel

/-- R178: the program of a removed command leaves its position torn, and its group as it was. -/
theorem test_program_fail_orphan :
    sees .programFail (porting .orphan (.program 64 (progOf 5 9)) base)
      (fun t => ((t.cell 64).map fun c => c.complete, (t.group 1).state, t.ntc.pendingEvent .media)) =
      some (some false, .opened, false) := by decide +kernel

/-- R91: the head of the dirty list becomes a ticket with the next sequence. -/
theorem test_wbe_capture :
    sees (.wbeCapture false) (draining (dirtied 5 base)) (fun t => (t.fc.ticket.map fun k => k.folio, t.mm.seq)) =
      some (some 5, 2) := by decide +kernel

/-- R93: the ticket's line is CLEAN, and its folio mapped to the program's location. -/
theorem test_ticket_complete :
    sees .ticketComplete (porting .wbe (.program 64 (progOf 5 5)) (ticketed 0 5 (dirtied 5 base)))
      (fun t => ((t.line 0).state, (t.mapEntry 5).target, t.fc.ticket)) = some (.clean, some 64, none) := by decide +kernel

/-- R81, R170: the part enters SLEEP, and every reservation is lost. -/
theorem test_sleep_completion :
    sees .sleepCompletion (reserved [rsv 1 0 1] sleeping) (fun t => (t.pwr.state, t.rvt.entries, t.pwr.mediaOn)) =
      some (.sleep, [], false) := by decide +kernel

/-- R173: no ticket but a voided one may be in flight in SLEEP. -/
theorem test_sleep_completion_ticket :
    sees .sleepCompletion (ticketed 0 5 sleeping) (fun t => t.pwr.state) = some .active := by decide +kernel

/-- R169. -/
theorem test_doze_entry :
    sees .dozeEntry { base with pwr := { base.pwr with intent := true } }
      (fun t => (t.pwr.state, t.ntc.pendingEvent .power)) = some (.doze, true) := by decide +kernel

/-- R171: ready, the part is IDLE if it has no work. -/
theorem test_media_ready :
    sees .mediaReady (powered .waking { base with pwr := { base.pwr with powerUp := some 3, mediaOn := false } })
      (fun t => (t.pwr.state, t.pwr.mediaOn)) = some (.idle, true) := by decide +kernel

/-- R171: WAKE in DOZE starts the media's power-up. -/
theorem test_wake :
    sees (.wake 2) (writing 0x03 { base with pwr := { base.pwr with state := .doze, mediaOn := false } })
      (fun t => (t.pwr.state, t.pwr.powerUp)) = some (.waking, some 0) := by decide +kernel

/-- R181: NEN. -/
theorem test_nen_write : sees (.nenWrite 1) (writing 0x03 base) (fun t => t.readReg .hostControl) = some 1 := by
  decide +kernel

/-- R177, R180: a CONTROLLER reset keeps the cache and has code 4. -/
theorem test_controller_reset :
    sees (.controllerReset 4) (writing 0x03 (dirtied 5 base)) (fun t => (t.dirtyCount, t.readReg .resetCause)) =
      some (1, 4) := by decide +kernel

/-- R175, R176: a PORT reset empties the cache, and the part is in RESET_HELD. -/
theorem test_port_reset :
    sees (.portReset 1) (writing 0x02 (dirtied 5 base)) (fun t => (t.dirtyCount, t.pwr.state, t.readReg .resetCause)) =
      some (0, .resetHeld, 3) := by decide +kernel

/-- R175, R139: the release begins the mount with group 0. -/
theorem test_port_reset_release :
    sees (.portResetRelease 0) (writing 0x02 held) (fun t => (t.pwr.state, t.mm.port)) =
      some (.mounting, some { req := .mount, op := .read 0, ticks := 0 }) := by decide +kernel

/-- R147, R176: a program cut off leaves its position without a completion mark. -/
theorem test_por :
    sees .por (porting .wbe (.program 64 (progOf 5 9)) base)
      (fun t => ((t.cell 64).map fun c => c.complete, t.rst.cause)) = some (some false, .por) := by decide +kernel

/-- R139: the mount erases a group with the erasing mark again. -/
theorem test_por_end :
    sees .porEnd { base with
        rst := { base.rst with inReset := some .por }
        mm := { base.mm with groups := [(0, { Group.fresh with erasing := true })] } }
      (fun t => t.mm.port) = some (some { req := .mount, op := .erase 0, ticks := 0 }) := by decide +kernel

/-- R175: RESETn low. -/
theorem test_pin_reset : sees .pinReset base (fun t => (t.rst.resetnLow, t.rst.cause)) = some (true, .pin) := by
  decide +kernel

/-- R175: RESETn high ends the PIN reset. -/
theorem test_pin_reset_release :
    sees .pinResetRelease { base with rst := { base.rst with resetnLow := true, inReset := some .pin } }
      (fun t => (t.rst.resetnLow, t.pwr.state)) = some (false, .mounting) := by decide +kernel

/-- R140: a complete position is classified, and the next one is read. -/
theorem test_mount_metadata_read_complete :
    sees (.mountMetadataReadComplete true) (scanning 130 (cellOf 5 3))
      (fun t => (t.mount.map fun m => m.scanned, t.mm.port)) =
      some (some [(130, .complete)], some { req := .mount, op := .read 131, ticks := 0 }) := by decide +kernel

/-- R138, R143: the end of a mount, not its scan, marks a metadata error; it is no candidate then although its metadata reads. -/
theorem test_mount_metadata_error_stays :
    (let s := scanning 130 (cellOf 5 3)
     let marked (c : Instr) (s : State) : Option Bool := (after c s).bind fun t => (t.cell 130).map fun c => c.metaLost
     (marked (.mountMetadataReadComplete false) s,
       marked .mountEnd (resolving [(130, .metadataError)] (some 130) (mapped 130 base)),
       sees (.mountMetadataReadComplete true) { s with mm := { s.mm with flash := [(130, { cellOf 5 3 with metaLost := true })] } }
         (fun t => t.mount.map fun m => m.scanned))) = (some false, some true, some (some [(130, .metadataError)])) := by decide +kernel

/-- R141: a group whose position 0 is erased is FREE from there, whatever an earlier mount took its next free position to be. -/
theorem test_mount_metadata_read_complete_free :
    sees (.mountMetadataReadComplete true)
      (let s := mounting .start (porting .mount (.read 128) base)
       { s with mm := { s.mm with groups := [(2, { groupIn .free with erases := 1, nextFree := 64 })] } })
      (fun t => ((t.group 2).nextFree, (t.group 2).erases, t.mount.map fun m => m.fullGroups)) = some (0, 1, some []) := by
  decide +kernel

/-- R147, R176: a POR keeps no next free position but that of the program it cuts off. -/
theorem test_por_next_free :
    sees .por
      (let s := porting .wbe (.program 130 (progOf 5 4)) base
       { s with mm := { s.mm with groups := [(2, groupIn .opened), (3, { groupIn .full with erases := 1, nextFree := 64 })] } })
      (fun t => ((t.group 2).nextFree, (t.group 3).nextFree)) = some (3, 0) := by decide +kernel

/-- R139: a group erased again has one more erase. -/
theorem test_mount_reerase_complete :
    sees (.mountReeraseComplete true) (mounting .start (porting .mount (.erase 2) base)) (fun t => (t.group 2).erases) =
      some 1 := by decide +kernel

/-- R143, R144: the map and the sequence after a mount that found one folio of sequence 3. -/
theorem test_mount_end :
    sees .mountEnd (resolving [(130, .complete)] none (mapped 130 base))
      (fun t => ((t.mapEntry 5).target, t.mm.seq, t.ntc.pendingEvent .mount)) = some (some 130, 4, true) := by decide +kernel

/-- R142, R143: a torn member of a committed write contributes its own sequence, and not base + 16. -/
theorem test_mount_end_torn_member :
    sees .mountEnd
      (let t : Cell := { cellOf 5 9 with metadata := { dataMeta 5 9 with kind := .tentative, base := 9 } }
       let n : Cell := { cellOf 5 10 with metadata := { dataMeta 5 10 with kind := .commitNote, count := 1, base := 9 } }
       let s := resolving [(64, .torn true), (65, .complete), (66, .complete)] none base
       { s with mm := { s.mm with flash := [(64, { t with complete := false }), (65, t), (66, n)] } })
      (fun t => t.mm.seq) = some 11 := by decide +kernel

/-- R172: a tick advances the stall timer of the operation in progress. -/
theorem test_tick :
    sees (.tick none none) (porting .relocation (.read 130) base) (fun t => t.mm.port.map fun o => o.ticks) =
      some (some 1) := by decide +kernel

/-- R131: the 401st tick abandons an erase, retires its group with origin STALL, and raises F3. -/
theorem test_stall_limit :
    sees (.stallLimit none none) (stalling .reclaim (.erase 2) (victimed { group := 2, pos := 64, copy := none } (group2 .full)))
      (fun t => (t.mm.defects, t.ntc.faults)) = some ([{ group := 2, origin := .stall }], 4) := by decide +kernel

/-- R164: MEDIA of the abandoned program is pending after the COLLISION reset of its F3. -/
theorem test_stall_limit_collision :
    sees (.stallLimit none none) (faulted 8 (stalling .wbe (.program 64 (progOf 5 9)) (ticketed 0 5 base)))
      (fun t => (t.rst.collision, t.ntc.evPending, t.ntc.faults)) = some (some (.f4, .f3), 0x10, 0) := by decide +kernel

/-- R171: the power-up is abandoned, and a new attempt begins. -/
theorem test_powerup_stall :
    sees (.powerupStall none none) (powered .waking { base with pwr := { base.pwr with powerUp := some 400 } })
      (fun t => (t.pwr.powerUp, t.ntc.faults)) = some (some 0, 4) := by decide +kernel

/-- R157. -/
theorem test_quiet_end :
    sees (.quietEnd none none) (withNtc (ntcOf 0 0 1 0)) (fun t => t.ntc.quiet) = some 0 := by decide +kernel

/-- R158: at the limit CMPL is pending. -/
theorem test_coalesce_timeout :
    sees (.coalesceTimeout none none)
      (withNtc { ntcOf 0 0 0 0 with unannounced := 1, threshold := 8, timer := some { elapsed := 4, limit := 5 } })
      (fun t => (t.ntc.pendingEvent .cmpl, t.ntc.unannounced, t.ntc.timer)) = some (true, 0, none) := by decide +kernel

/-- R167: the intent arms at DOZE_DELAY × 100 ticks, and the part enters DOZE in a due step. -/
theorem test_doze_intent_arm :
    sees (.dozeIntentArm none none) { base with pwr := { base.pwr with dozeDelay := 1, idleTimer := 99 } }
      (fun t => (t.pwr.intent, t.due)) = some (true, some .dozeEntry) := by decide +kernel

/-- R149: bits of 1 clear flags. -/
theorem test_ev_pending_clear :
    sees (.evPendingClear 0x101) (writing 0x20 (withNtc (ntcOf 0x107 0 0 0))) (fun t => t.ntc.evPending) = some 6 := by
  decide +kernel

/-- R150. -/
theorem test_fault_pending_clear :
    sees (.faultPendingClear 8) (writing 0x23 (faulted 9 base)) (fun t => t.ntc.faults) = some 1 := by decide +kernel

/-- R153: the level is pushed. -/
theorem test_claim :
    sees .claim (owing 0x24 (.pushClaim 6) (withNtc (ntcOf 0 0 0 2))) (fun t => (t.ntc.level, t.ntc.stack)) =
      some (6, [2]) := by decide +kernel

/-- R154: END on an empty stack raises F1. -/
theorem test_end_write : sees (.endWrite 0) (writing 0x25 base) (fun t => t.ntc.faults) = some 1 := by decide +kernel

/-- R155. -/
theorem test_service_write :
    sees (.serviceWrite 6) (writing 0x26 base) (fun t => t.readReg .service) = some 6 := by decide +kernel

/-- R157: a lower value than the count is ignored. -/
theorem test_quiet_write :
    sees (.quietWrite 3) (writing 0x28 (withNtc (ntcOf 0 0 7 0))) (fun t => t.ntc.quiet) = some 7 := by decide +kernel

/-- R159: T at or below U announces. -/
theorem test_coalesce_write :
    sees (.coalesceWrite 0x502) (writing 0x29 (counting 2 8)) (fun t => (t.ntc.pendingEvent .cmpl, t.readReg .coalesce)) =
      some (true, 0x502) := by decide +kernel

/-- R94. -/
theorem test_cache_policy_write :
    sees (.cachePolicyWrite 0x10101F20) (writing 0x30 base) (fun t => t.readReg .cachePolicy) = some 0x1018
      ∧ sees (.cachePolicyWrite 0x11F20) (writing 0x30 base) (fun t => t.readReg .cachePolicy) = some 0x11F20 := by
  decide +kernel

/-- R167: DOZE_DELAY 0 disarms the intent. -/
theorem test_doze_delay_write :
    sees (.dozeDelayWrite 0) (writing 0x32 { base with pwr := { base.pwr with idleTimer := 9 } })
      (fun t => (t.pwr.dozeDelay, t.pwr.idleTimer)) = some (0, 0) := by decide +kernel

/-- R124: the RETIRING group comes first. -/
theorem test_reclaim_victim_choice :
    sees .reclaimVictimChoice (group2 .retiring) (fun t => t.mm.victim.map fun v => (v.group, v.pos)) = some (some (2, 2)) := by
  decide +kernel

/-- R118: the entry follows its copy. -/
theorem test_reclaim_copy_complete :
    sees .reclaimCopyComplete
      (porting .reclaim (.program 0 (progOf 5 3)) (victimed { group := 2, pos := 2, copy := some copy130 } (group2 .full)))
      (fun t => (t.mapEntry 5).target) = some (some 0) := by decide +kernel

/-- R125: the erased group is FREE, its positions erased. -/
theorem test_reclaim_erase_complete :
    sees (.reclaimEraseComplete true)
      (porting .reclaim (.erase 2) (victimed { group := 2, pos := 64, copy := none } (group2 .full)))
      (fun t => (t.group 2, t.mm.flash, t.mm.victim)) =
      some ({ Group.fresh with erases := 1 }, [], none) := by decide +kernel

/-- R128: counted, and MEDIA. -/
theorem test_relocation_copy_complete :
    sees .relocationCopyComplete (porting .relocation (.program 0 (progOf 5 3)) { mapped 130 base with
        mm := { (mapped 130 base).mm with relocCopy := some copy130 } })
      (fun t => ((t.mapEntry 5).target, t.mm.health.relocationsDone, t.ntc.pendingEvent .media)) =
      some (some 0, 1, true) := by decide +kernel

end Sys2Proof.Tests
end

section
/-!
The undecoded addresses (R11): which they are, that the capture of a word there takes 0 and owes nothing, and that a word
written there leaves the state in which the port has counted it. Together they settle UndecodedAddressesDoNothing.
-/

namespace Sys2Proof.Machine

/-! ### Which addresses are undecoded -/

theorem sparseGet_eq_none_iff {α : Type} (k : Nat) (l : List (Nat × α)) : sparseGet k l = none ↔ ∀ p ∈ l, p.1 ≠ k := by
  refine ⟨fun h => ?_, sparseGet_eq_none⟩
  induction l with
  | nil => simp
  | cons q rest ih =>
    rw [sparseGet] at h
    split at h
    · cases h
    · next hq => exact List.forall_mem_cons.2 ⟨hq, ih h⟩

theorem isDataPortAddr_eq_false_iff (a : WordAddr) :
    isDataPortAddr a = false ↔ a.toNat ≠ 0x19 ∧ (a.toNat < 0x100 ∨ 0x200 ≤ a.toNat) := by
  rw [isDataPortAddr, Bool.or_eq_false_iff, beq_eq_false_iff_ne, beq_eq_false_iff_ne, BitVec.toNat_ne]
  exact and_congr_right fun _ => by omega

/-- An address is undecoded where neither DATA_PORT nor Table 12-1 has it. -/
theorem regOf_eq_none_iff (a : WordAddr) :
    regOf a = none ↔ isDataPortAddr a = false ∧ ∀ p ∈ regTable, p.1 ≠ a.toNat := by
  cases h : isDataPortAddr a <;> simp [regOf, h, sparseGet_eq_none_iff]

/-- The gaps of Table 12-1 and of the data window are the list of R11. -/
theorem regOf_eq_none_iff_ranges (a : WordAddr) :
    regOf a = none ↔
      a = 0x06 ∨ a = 0x07 ∨ a = 0x16 ∨ a = 0x17 ∨ (0x1A ≤ a.toNat ∧ a.toNat ≤ 0x1F) ∨ (0x2A ≤ a.toNat ∧ a.toNat ≤ 0x2F)
        ∨ (0x33 ≤ a.toNat ∧ a.toNat ≤ 0x37) ∨ (0x3E ≤ a.toNat ∧ a.toNat ≤ 0xFF) ∨ 0x200 ≤ a.toNat := by
  rw [regOf_eq_none_iff, isDataPortAddr_eq_false_iff]
  simp only [regTable, List.forall_mem_cons, List.not_mem_nil, false_imp_iff, implies_true, ← BitVec.toNat_inj,
    BitVec.reduceToNat, and_true]
  constructor
  · intro h
    omega
  · intro h
    omega

/-! ### Writes -/

/-- A completed write word whose act leaves the counted state as it is has no effect but that count, in RESET_HELD as well. -/
theorem writeAt_of_no_effect {addr : WordAddr} {f : State → State} {s : State} (h : s.hpi.acceptsWrite addr = true)
    (hf : f s.counted = s.counted) : writeAt addr f s = endUnit s.counted := by
  change f { s with hpi := s.hpi.advance } = _ at hf
  simp [writeAt, h, hf, State.counted]

theorem writeAddr_undecoded {a : WordAddr} (h : regOf a = none) (w : Word) (s : State) : writeAddr a w s = s := by
  simp [writeAddr, h]

/-! ### Reads -/

theorem readAddr_undecoded {a : WordAddr} (h : regOf a = none) (s : State) : s.readAddr a = 0 := by
  simp [State.readAddr, h]

theorem captureOf_undecoded {a : WordAddr} (h : regOf a = none) (s : State) :
    s.captureOf a = { value := 0, effect := .nothing } := by
  simp [State.captureOf, h, readAddr_undecoded h]

theorem snapshotWord_undecoded {a : WordAddr} (h : regOf a = none) (p : Hpi) : p.snapshotWord a = none := by
  simp [Hpi.snapshotWord, h]

/-- The head's snapshot is taken at 0x10 alone, which is decoded. -/
theorem takeSnapshot_undecoded {s : State} (h : regOf s.hpi.nextAddr = none) : takeSnapshot s = s := by
  have hne : s.hpi.nextAddr ≠ 0x10#16 := fun e => by rw [e] at h; cases h
  simp [takeSnapshot, hne]

/-- No buffer is checked at an address outside DATA_PORT. -/
theorem badCapture_undecoded {s : State} (h : regOf s.hpi.nextAddr = none) (bad : Bool) : s.badCapture bad = none := by
  obtain ⟨hdata, -⟩ := (regOf_eq_none_iff _).1 h
  simp [State.badCapture, hdata]

/-- A word captured at an undecoded address is 0 and owes no side effect. -/
theorem captureWord_undecoded {s : State} (h : regOf s.hpi.nextAddr = none) :
    captureWord s = { s with hpi := { s.hpi.advance with
      captured := some { addr := s.hpi.nextAddr, value := 0, effect := .nothing }, sdo := .bits 0 } } := by
  simp [captureWord, snapshotWord_undecoded h, captureOf_undecoded h]

theorem captureOp_undecoded {s : State} (h : regOf s.hpi.nextAddr = none) (bad : Bool)
    (hdue : s.hpi.wordDue .readBurst = true) (howes : s.hpi.owes = false) : captureOp bad s = captureWord s := by
  simp [captureOp, hdue, howes, badCapture_undecoded h, takeSnapshot_undecoded h]

/-! ### The rows -/

theorem exec_registerWrite_undecoded {a : WordAddr} (h : regOf a = none) (w : Word) {s : State} (hs : s.Takes a) :
    exec (.registerWrite a w) s = .next (endUnit s.counted) := by
  obtain ⟨hrest, haccepts⟩ := hs
  change execRegisterWrite a w s = _
  rw [execRegisterWrite, caughtUp_atRest hrest, writeAt_of_no_effect haccepts (writeAddr_undecoded h w _)]

theorem exec_readWordCapture_undecoded {s : State} (h : regOf s.hpi.nextAddr = none) (bad : Bool) (hrest : s.AtRest)
    (hdue : s.hpi.wordDue .readBurst = true) (howes : s.hpi.owes = false) :
    exec (.readWordCapture bad) s = .next (endUnit { s with hpi := { s.hpi.advance with
      captured := some { addr := s.hpi.nextAddr, value := 0, effect := .nothing }, sdo := .bits 0 } }) := by
  change execReadWordCapture bad s = _
  rw [execReadWordCapture, caughtUp_atRest hrest, captureOp_undecoded h bad hdue howes, captureWord_undecoded h]

/-- Settles O21: the ranges are the gaps of Table 12-1 and of the data window; at an address that decodes to no register the
write acts by nothing, and the capture meets neither the snapshot, nor the buffer check, nor a register with a side
effect. -/
theorem undecodedAddressesDoNothing : Obligations.UndecodedAddressesDoNothing := by
  intro a
  refine ⟨regOf_eq_none_iff_ranges a, fun s h => ⟨fun w hs => exec_registerWrite_undecoded h w hs, ?_⟩⟩
  rintro bad hrest hdue howes rfl
  exact exec_readWordCapture_undecoded h bad hrest hdue howes

end Sys2Proof.Machine
end

section
/-!
The operations that leave the CSQ alone. Only the staging words of R18 are followed below, so an operation on the cache, the
media, the reservations, the ports or the power state matters here by `csq` alone.
-/

namespace Sys2Proof.Machine

/-! ### Events, buffers, reservations and faults -/

@[simp] theorem reject_csq (r : RejectReason) (a b : Byte) (s : State) : (reject r a b s).csq = s.csq := by
  rw [reject_frame]

@[simp] theorem badValue_csq (a : Byte) (s : State) : (badValue a s).csq = s.csq := reject_csq _ _ _ _

@[simp] theorem setBuf_csq (b : BufId) (x : Buffer) (s : State) : (setBuf b x s).csq = s.csq := by rw [setBuf_frame]

@[simp] theorem placeFolio_csq (n : Fin 8) (d : FolioData) (s : State) : (placeFolio n d s).csq = s.csq := by
  rw [placeFolio_frame]

@[simp] theorem chooseOwner_csq (s : State) : (chooseOwner s).csq = s.csq := by rw [chooseOwner_frame]

@[simp] theorem breakWhere_csq (p : Rsv → Bool) (c : BreakCause) (s : State) : (breakWhere p c s).csq = s.csq := by
  rw [breakWhere_frame]

@[simp] theorem breakAll_csq (c : BreakCause) (s : State) : (breakAll c s).csq = s.csq := breakWhere_csq _ _ _

@[simp] theorem createRsv_csq (r : Rsv) (s : State) : (createRsv r s).csq = s.csq := by rw [createRsv_frame]

@[simp] theorem writeRsvActions_csq (d : Desc) (s : State) : (writeRsvActions d s).csq = s.csq := by
  simp only [writeRsvActions, breakWhere_csq]
  split
  · exact consumeRsv_csq _ _ _ _
  · rfl

@[simp] theorem raiseFault_csq (f : FaultCode) (s : State) : (raiseFault f s).csq = s.csq := by rw [raiseFault_frame]

/-! ### The media -/

@[simp] theorem poisonFolio_csq (f : Nat) (s : State) : (poisonFolio f s).csq = s.csq := by rw [poisonFolio_frame]

@[simp] theorem poisonTarget_csq (l : Loc) (s : State) : (poisonTarget l s).csq = s.csq := by rw [poisonTarget_frame]

@[simp] theorem clearPoison_csq (f : Nat) (s : State) : (clearPoison f s).csq = s.csq := by rw [clearPoison_frame]

@[simp] theorem offerData_csq (f : Nat) (q : Word) (l : Loc) (s : State) : (offerData f q l s).csq = s.csq := by
  rw [offerData_frame]

@[simp] theorem takeReclaimOpen_csq (s : State) : (takeReclaimOpen s).csq = s.csq := by rw [takeReclaimOpen_frame]

@[simp] theorem takeHostOpen_csq (s : State) : (takeHostOpen s).csq = s.csq := by rw [takeHostOpen_frame]

@[simp] theorem landProgram_csq (l : Loc) (p : Prog) (s : State) : (landProgram l p s).csq = s.csq := by
  rw [landProgram_frame]

@[simp] theorem programLost_csq (o : Origin) (q : Requester) (l : Loc) (p : Prog) (s : State) :
    (programLost o q l p s).csq = s.csq := by
  by_cases h : q = .orphan
  · rw [(programLost_eq o q l p s).1 h]
    rw [tearProgram_frame]
  · rw [(programLost_eq o q l p s).2 h]
    rw [failProgram_frame]

@[simp] theorem reserveFell_csq (s : State) : (reserveFell s).csq = s.csq := by rw [reserveFell_frame]

@[simp] theorem retireGroup_csq (g : Nat) (o : Origin) (s : State) : (retireGroup g o s).csq = s.csq := by
  rw [retireGroup_frame]

@[simp] theorem failErase_csq (g : Nat) (o : Origin) (s : State) : (failErase g o s).csq = s.csq := by simp [failErase]

@[simp] theorem countRead_csq (r : ReadResult) (s : State) : (countRead r s).csq = s.csq := by cases r <;> rfl

@[simp] theorem offerWorn_csq (l : Loc) (n : Nat) (s : State) : (offerWorn l n s).csq = s.csq := by
  unfold offerWorn offerRelocation
  split
  · split <;> rfl
  · rfl

@[simp] theorem orphanRead_csq (l : Loc) (r : ReadResult) (s : State) : (orphanRead l r s).csq = s.csq := by
  unfold orphanRead
  split <;> simp

@[simp] theorem reclaimRead_csq (l : Loc) (r : ReadResult) (s : State) : (reclaimRead l r s).csq = s.csq := by
  have h : (if r = .uncorrectable then poisonTarget l s else s).csq = s.csq := by split <;> simp
  unfold reclaimRead
  dsimp only
  split <;> exact h

@[simp] theorem relocationRead_csq (l : Loc) (r : ReadResult) (s : State) : (relocationRead l r s).csq = s.csq := by
  unfold relocationRead
  split <;> simp

@[simp] theorem reclaimProgress_csq (s : State) : (reclaimProgress s).csq = s.csq := by
  unfold reclaimProgress
  dsimp only
  repeat' split
  all_goals simp

@[simp] theorem evalMedia_csq (s : State) : (evalMedia s).csq = s.csq := by rw [evalMedia_frame]

@[simp] theorem cutOff_csq (op : Option PortOp) (s : State) : (cutOff op s).csq = s.csq := by
  unfold cutOff
  repeat' split
  all_goals rfl

/-! ### The Mount Engine -/

@[simp] theorem mountGroup_csq (g : Nat) (s : State) : (mountGroup g s).csq = s.csq := by
  unfold mountGroup
  dsimp only
  repeat' split
  all_goals rfl

@[simp] theorem startMount_csq (s : State) : (startMount s).csq = s.csq := mountGroup_csq _ _

@[simp] theorem endGroup_csq (g k : Nat) (s : State) : (endGroup g k s).csq = s.csq := by
  unfold endGroup
  dsimp only
  rw [mountGroup_csq]
  split <;> rfl

@[simp] theorem classify_csq (l : Loc) (c : ScanClass) (s : State) : (classify l c s).csq = s.csq := rfl

@[simp] theorem nextPosition_csq (l : Loc) (s : State) : (nextPosition l s).csq = s.csq := by
  unfold nextPosition
  split <;> simp

@[simp] theorem mountRead_csq (b : Bool) (s : State) : (mountRead b s).csq = s.csq := by
  unfold mountRead scanPosition
  repeat' split
  all_goals simp

@[simp] theorem reerased_csq (g : Nat) (o : Option Origin) (s : State) : (reerased g o s).csq = s.csq := by
  cases o <;> simp [reerased]

@[simp] theorem mountErased_csq (b : Bool) (s : State) : (mountErased b s).csq = s.csq := by
  unfold mountErased
  repeat' split
  all_goals simp

/-- What each pass over a list keeps, the whole loop keeps. -/
theorem foldl_keeps {α β : Type} (view : State → β) {f : State → α → State} (h : ∀ s a, view (f s a) = view s) (l : List α)
    (s : State) : view (l.foldl f s) = view s := by
  induction l generalizing s with
  | nil => rfl
  | cons a l ih => rw [List.foldl_cons, ih, h]

@[simp] theorem mountResolve_csq (m : Mount) (s : State) : (mountResolve m s).csq = s.csq := by
  simp only [mountResolve, pruneNotes_csq]
  rw [foldl_keeps State.csq (fun s g => putGroup_csq g _ s)]
  rw [(loseErrors_spec m s).1]

@[simp] theorem mountReserve_csq (s : State) : (mountReserve s).csq = s.csq := by
  unfold mountReserve
  dsimp only
  split <;> split <;> rfl

@[simp] theorem unmapRange_csq (a k : Nat) (e : MapEntry) (s : State) : (unmapRange a k e s).csq = s.csq := by
  unfold unmapRange
  split
  · rfl
  · exact foldl_keeps State.csq (fun s i => putEntry_csq _ _ s) _ s

/-! ### Lines -/

@[simp] theorem enlist_csq (l : Fin 32) (s : State) : (enlist l s).csq = s.csq := by rw [enlist_frame]

@[simp] theorem voidTicket_csq (l : Fin 32) (s : State) : (voidTicket l s).csq = s.csq := by rw [voidTicket_frame]

@[simp] theorem capture_csq (l : Fin 32) (s : State) : (capture l s).csq = s.csq := rfl

/-! ### Power -/

@[simp] theorem wakeCause_csq (s : State) : (wakeCause s).csq = s.csq := by rw [wakeCause_frame]

@[simp] theorem submitPower_csq (s : State) : (submitPower s).csq = s.csq := wakeCause_csq _

@[simp] theorem wakeAction_csq (s : State) : (wakeAction s).csq = s.csq := by
  unfold wakeAction
  split <;> simp

@[simp] theorem settleMediaPower_csq (s : State) : (settleMediaPower s).csq = s.csq := by rw [settleMediaPower_frame]

@[simp] theorem enterDoze_csq (s : State) : (enterDoze s).csq = s.csq := rfl

@[simp] theorem enterSleep_csq (s : State) : (enterSleep s).csq = s.csq := by simp [enterSleep]

@[simp] theorem mediaReadyOp_csq (s : State) : (mediaReadyOp s).csq = s.csq := by
  unfold mediaReadyOp
  split <;> rfl

@[simp] theorem armIntent_csq (s : State) : (armIntent s).csq = s.csq := by
  unfold armIntent
  split <;> rfl

/-! ### Frames of the host port -/

@[simp] theorem frameStartOp_csq (s : State) : (frameStartOp s).csq = s.csq := by
  unfold frameStartOp
  split <;> rfl

@[simp] theorem typeDecode_csq (b : Byte) (a : WordAddr) (k : Byte) (s : State) : (typeDecode b a k s).csq = s.csq := by
  unfold typeDecode
  repeat' split
  all_goals simp [beginBurst]

@[simp] theorem pollWord_csq (s : State) : (pollWord s).csq = s.csq := by
  unfold pollWord
  repeat' split
  all_goals rfl

@[simp] theorem frameEndOp_csq (s : State) : (frameEndOp s).csq = s.csq := by
  unfold frameEndOp
  split <;> rfl

@[simp] theorem takeSnapshot_csq (s : State) : (takeSnapshot s).csq = s.csq := by
  unfold takeSnapshot
  split <;> rfl

@[simp] theorem clockPast_csq (s : State) : (clockPast s).csq = s.csq := rfl

@[simp] theorem dropConsumption_csq (s : State) : (dropConsumption s).csq = s.csq := by
  unfold dropConsumption
  repeat' split
  all_goals rfl

@[simp] theorem bumpConsumed_csq (n : Fin 8) (s : State) : (bumpConsumed n s).csq = s.csq := by
  unfold bumpConsumed
  split <;> simp

@[simp] theorem appendWord_csq (n : Fin 8) (w : Word) (s : State) : (appendWord n w s).csq = s.csq := by
  unfold appendWord
  split <;> simp

end Sys2Proof.Machine
end

section
/-!
The operations of the sequencer and the engines that write other parts of the CSQ (slot records, run queue, completion queue,
apply) and leave the staging words: R18, "No action of the sequencer, the data port or any engine changes the staging words".
Bottom up, one lemma per operation, to everything that is performed before a command acts and at the end of its unit.
-/

namespace Sys2Proof.Machine

/-! ### Completion, settling and the end of a unit -/

@[simp] theorem completeSlot_csq_cd (n : Fin 8) (st : Status) (k : Nat) (s : State) :
    (completeSlot n st k s).csq.cd = s.csq.cd := by rw [completeSlot_frame]

@[simp] theorem settleSlots_csq_cd (s : State) : (settleSlots s).csq.cd = s.csq.cd := by rw [settleSlots_frame]

@[simp] theorem finishApply_csq_cd (n : Fin 8) (st : Status) (k : Nat) (s : State) :
    (finishApply n st k s).csq.cd = s.csq.cd := by rw [finishApply_frame]

@[simp] theorem assignOne_csq_cd (s : State) : (assignOne s).csq.cd = s.csq.cd := by rw [assignOne_frame]

@[simp] theorem releaseRetry_csq_cd (s : State) : (releaseRetry s).csq.cd = s.csq.cd := by rw [releaseRetry_frame]

@[simp] theorem endUnit_csq_cd (s : State) : (endUnit s).csq.cd = s.csq.cd := by simp [endUnit, assignBuffers]

/-! ### Lines and tickets -/

@[simp] theorem satisfyTriples_csq_cd (p : Triple → Bool) (s : State) : (satisfyTriples p s).csq.cd = s.csq.cd := rfl

@[simp] theorem givePartial_csq_cd (m : Option (Fin 8)) (s : State) : (givePartial m s).csq.cd = s.csq.cd := by
  rw [givePartial_frame]

@[simp] theorem invalidate_csq_cd (l : Fin 32) (s : State) : (invalidate l s).csq.cd = s.csq.cd := rfl

@[simp] theorem invalidateAll_csq_cd (ls : List (Fin 32)) (s : State) : (invalidateAll ls s).csq.cd = s.csq.cd :=
  foldl_keeps (·.csq.cd) (fun s l => invalidate_csq_cd l s) ls s

@[simp] theorem writeDirty_csq_cd (l : Fin 32) (f : Nat) (d : FolioData) (s : State) :
    (writeDirty l f d s).csq.cd = s.csq.cd := by simp [writeDirty]

@[simp] theorem cacheUpdate_csq_cd (f : Nat) (d : FolioData) (s : State) : (cacheUpdate f d s).csq.cd = s.csq.cd := by
  rw [cacheUpdate_frame]

@[simp] theorem dirtyLineError_csq_cd (l : Fin 32) (s : State) : (dirtyLineError l s).csq.cd = s.csq.cd := by
  simp [dirtyLineError]

@[simp] theorem lineError_csq_cd (l : Fin 32) (s : State) : (lineError l s).csq.cd = s.csq.cd := by
  unfold lineError
  split <;> simp [cleanLineError]

@[simp] theorem dropStale_csq_cd (t : Ticket) (s : State) : (dropStale t s).csq.cd = s.csq.cd := by
  unfold dropStale
  repeat' split
  all_goals rfl

@[simp] theorem purgeLine_csq_cd (l : Fin 32) (s : State) : (purgeLine l s).csq.cd = s.csq.cd := by
  unfold purgeLine
  split <;> rfl

@[simp] theorem settleOwnLine_csq_cd (t : Ticket) (s : State) : (settleOwnLine t s).csq.cd = s.csq.cd := by
  unfold settleOwnLine
  dsimp only
  repeat' split
  all_goals simp

@[simp] theorem settleTicket_csq_cd (t : Ticket) (l : Loc) (s : State) : (settleTicket t l s).csq.cd = s.csq.cd := by
  unfold settleTicket
  dsimp only
  rw [satisfyTriples_csq_cd]
  split
  · rfl
  · rw [settleOwnLine_csq_cd]
    split <;> simp

/-! ### The start of a command -/

@[simp] theorem writeBufferError_csq_cd (n : Fin 8) (s : State) : (writeBufferError n s).csq.cd = s.csq.cd := by
  simp [writeBufferError]

@[simp] theorem readBufferError_csq_cd (n : Fin 8) (s : State) : (readBufferError n s).csq.cd = s.csq.cd := by
  simp only [readBufferError, completeSlot_csq_cd]
  split <;> simp

@[simp] theorem endPlacing_csq_cd (n : Fin 8) (s : State) : (endPlacing n s).csq.cd = s.csq.cd := by
  unfold endPlacing
  dsimp only
  repeat' split
  all_goals simp

@[simp] theorem enterApply_csq_cd (n : Fin 8) (k : StartKind) (w : Wait) (s : State) :
    (enterApply n k w s).csq.cd = s.csq.cd := rfl

@[simp] theorem beginApply_csq_cd (n : Fin 8) (k : StartKind) (s : State) : (beginApply n k s).csq.cd = s.csq.cd := rfl

@[simp] theorem startWrite_csq_cd (n : Fin 8) (k : StartKind) (b : Bool) (s : State) :
    (startWrite n k b s).csq.cd = s.csq.cd := by
  unfold startWrite commitWrite
  dsimp only
  repeat' split
  all_goals simp

@[simp] theorem commitTrim_csq_cd (n : Fin 8) (s : State) : (commitTrim n s).csq.cd = s.csq.cd := by
  unfold commitTrim
  dsimp only
  split <;> simp

@[simp] theorem commitEraseAll_csq_cd (n : Fin 8) (s : State) : (commitEraseAll n s).csq.cd = s.csq.cd := by
  unfold commitEraseAll
  split <;> simp

@[simp] theorem endSettling_csq_cd (n : Fin 8) (s : State) : (endSettling n s).csq.cd = s.csq.cd := by simp [endSettling]

@[simp] theorem purgeExamine_csq_cd (n : Fin 8) (l : Fin 32) (s : State) : (purgeExamine n l s).csq.cd = s.csq.cd := by
  unfold purgeExamine
  dsimp only
  split <;> simp

@[simp] theorem commitPurge_csq_cd (n : Fin 8) (s : State) : (commitPurge n s).csq.cd = s.csq.cd := by
  simp only [commitPurge, endSettling_csq_cd, modSlot_csq_cd]
  exact foldl_keeps (·.csq.cd) (fun s l => purgeExamine_csq_cd n l s) _ s

@[simp] theorem commitRecord_csq_cd (n : Fin 8) (w : Word) (d : FolioData) (s : State) :
    (commitRecord n w d s).csq.cd = s.csq.cd := by simp [commitRecord]

@[simp] theorem startSlot_csq_cd (n : Fin 8) (b : Bool) (s : State) : (startSlot n b s).csq.cd = s.csq.cd := by
  unfold startSlot
  split <;> simp [commitDiscard, commitClean, commitFlush, commitSync, commitSleep]

/-! ### The steps of an apply -/

@[simp] theorem nextStep_csq_cd (a : Apply) (s : State) : (nextStep a s).csq.cd = s.csq.cd := rfl

@[simp] theorem requestMedia_csq_cd (a : Apply) (r : MediaReq) (s : State) : (requestMedia a r s).csq.cd = s.csq.cd := rfl

@[simp] theorem modFlags_csq_cd (n : Fin 8) (f : CompFlags → CompFlags) (s : State) : (modFlags n f s).csq.cd = s.csq.cd := rfl

@[simp] theorem finishCount_csq_cd (a : Apply) (s : State) : (finishCount a s).csq.cd = s.csq.cd :=
  finishApply_csq_cd _ _ _ _

@[simp] theorem advanceWrite_csq_cd (a : Apply) (s : State) : (advanceWrite a s).csq.cd = s.csq.cd := by
  unfold advanceWrite
  split <;> simp

@[simp] theorem advanceRead_csq_cd (a : Apply) (s : State) : (advanceRead a s).csq.cd = s.csq.cd := by
  unfold advanceRead
  split <;> simp

@[simp] theorem advancePrefetch_csq_cd (a : Apply) (s : State) : (advancePrefetch a s).csq.cd = s.csq.cd := by
  unfold advancePrefetch
  split <;> simp

@[simp] theorem readUnreadable_csq_cd (a : Apply) (f : Nat) (s : State) : (readUnreadable a f s).csq.cd = s.csq.cd := by
  simp [readUnreadable]

@[simp] theorem readMiss_csq_cd (a : Apply) (f : Nat) (s : State) : (readMiss a f s).csq.cd = s.csq.cd := by
  unfold readMiss
  repeat' split
  all_goals simp

@[simp] theorem readStep_csq_cd (a : Apply) (b : Bool) (s : State) : (readStep a b s).csq.cd = s.csq.cd := by
  unfold readStep
  repeat' split
  all_goals simp [readHit]

@[simp] theorem prefetchStep_csq_cd (a : Apply) (s : State) : (prefetchStep a s).csq.cd = s.csq.cd := by
  unfold prefetchStep
  repeat' split
  all_goals simp

@[simp] theorem cachedStep_csq_cd (a : Apply) (s : State) : (cachedStep a s).csq.cd = s.csq.cd := by
  unfold cachedStep
  dsimp only
  repeat' split
  all_goals simp

@[simp] theorem throughStep_csq_cd (a : Apply) (s : State) : (throughStep a s).csq.cd = s.csq.cd := rfl

@[simp] theorem atomicUpdate_csq_cd (a : Apply) (s : State) : (atomicUpdate a s).csq.cd = s.csq.cd := by
  unfold atomicUpdate
  dsimp only
  repeat' split
  all_goals simp

@[simp] theorem atomicStep_csq_cd (a : Apply) (s : State) : (atomicStep a s).csq.cd = s.csq.cd := by
  unfold atomicStep
  dsimp only
  repeat' split
  all_goals simp

@[simp] theorem trimStep_csq_cd (a : Apply) (s : State) : (trimStep a s).csq.cd = s.csq.cd := by
  unfold trimStep
  split
  · simp [trimInvalidate]
  · rfl
  · simp [trimUnmap]

@[simp] theorem discardStep_csq_cd (a : Apply) (s : State) : (discardStep a s).csq.cd = s.csq.cd := by simp [discardStep]

@[simp] theorem stepWork_csq_cd (a : Apply) (b : Bool) (s : State) : (stepWork a b s).csq.cd = s.csq.cd := by
  unfold stepWork
  split <;> simp

@[simp] theorem applyStepOp_csq_cd (b : Bool) (s : State) : (applyStepOp b s).csq.cd = s.csq.cd := by
  unfold applyStepOp beginStep
  repeat' split
  all_goals simp

/-! ### What is due -/

@[simp] theorem endWait_csq_cd (s : State) : (endWait s).csq.cd = s.csq.cd := by
  unfold endWait
  split <;> simp

@[simp] theorem perform_csq_cd (d : Due) (b : Bool) (s : State) : (perform d b s).csq.cd = s.csq.cd := by
  cases d <;> simp [perform]

theorem settleDue_csq_cd (k : Nat) (s : State) : (settleDue k s).csq.cd = s.csq.cd := by
  induction k generalizing s with
  | zero => rfl
  | succ k ih =>
    unfold settleDue
    split
    · rw [ih, perform_csq_cd]
    · rfl

@[simp] theorem caughtUp_csq_cd (s : State) : (caughtUp s).csq.cd = s.csq.cd := settleDue_csq_cd 24 s

theorem settleUntil_csq_cd (p : State → Due → Bool) (k : Nat) (s : State) : (settleUntil p k s).csq.cd = s.csq.cd := by
  induction k generalizing s with
  | zero => rfl
  | succ k ih =>
    unfold settleUntil
    repeat' split
    · rfl
    · rw [ih, perform_csq_cd]
    · rfl

@[simp] theorem dueRow_csq_cd (p : State → Due → Bool) (b : Bool) (s : State) : (dueRow p b s).csq.cd = s.csq.cd := by
  unfold dueRow performIf
  repeat' split
  all_goals simp [settleUntil_csq_cd]

/-! ### The media port and the engines -/

@[simp] theorem answerUnmapped_csq_cd (a : Apply) (f : Nat) (s : State) : (answerUnmapped a f s).csq.cd = s.csq.cd := by
  unfold answerUnmapped
  split <;> simp

theorem grantApply_csq_cd (s : State) : ∀ t ∈ grantApply s, t.csq.cd = s.csq.cd := by
  unfold grantApply
  repeat' split
  all_goals simp

theorem grantTicket_csq_cd (s : State) : ∀ t ∈ grantTicket s, t.csq.cd = s.csq.cd := by
  unfold grantTicket
  split <;> simp

theorem grantReclaim_csq_cd (s : State) : ∀ t ∈ grantReclaim s, t.csq.cd = s.csq.cd := by
  unfold grantReclaim
  dsimp only
  repeat' split
  all_goals simp

theorem grantRelocation_csq_cd (s : State) : ∀ t ∈ grantRelocation s, t.csq.cd = s.csq.cd := by
  unfold grantRelocation
  dsimp only
  repeat' split
  all_goals simp

/-- Whatever the order of R135 puts first, the grant is one of the four, or none is ready. -/
@[simp] theorem grantFirst_csq_cd (s : State) : (grantFirst s).csq.cd = s.csq.cd := by
  have hgetD : ∀ o : Option State, (∀ t ∈ o, t.csq.cd = s.csq.cd) → (o.getD s).csq.cd = s.csq.cd := by
    rintro (_ | t) h
    · rfl
    · exact h t rfl
  unfold grantFirst
  dsimp only
  split
  · exact hgetD _ (grantApply_csq_cd s)
  · refine hgetD _ fun t ht => ?_
    obtain ⟨o, ho, hot⟩ := List.exists_of_findSome?_eq_some ht
    have hmem : o = grantReclaim s ∨ o = grantApply s ∨ o = grantTicket s ∨ o = grantRelocation s := by
      split at ho <;> simp at ho <;> tauto
    obtain rfl | rfl | rfl | rfl := hmem
    · exact grantReclaim_csq_cd s t hot
    · exact grantApply_csq_cd s t hot
    · exact grantTicket_csq_cd s t hot
    · exact grantRelocation_csq_cd s t hot

@[simp] theorem portGrant_csq_cd (s : State) : (portGrant s).csq.cd = s.csq.cd := by
  unfold portGrant
  split
  · rw [grantFirst_csq_cd]
    split <;> simp
  · rfl

@[simp] theorem noteCorrection_csq_cd (n : Fin 8) (k : Nat) (s : State) : (noteCorrection n k s).csq.cd = s.csq.cd := by
  unfold noteCorrection
  split <;> rfl

@[simp] theorem applyReadGood_csq_cd (a : Apply) (r : MediaReq) (k : Nat) (d : FolioData) (s : State) :
    (applyReadGood a r k d s).csq.cd = s.csq.cd := by
  unfold applyReadGood
  dsimp only
  repeat' split
  all_goals simp

@[simp] theorem applyReadBad_csq_cd (a : Apply) (r : MediaReq) (s : State) : (applyReadBad a r s).csq.cd = s.csq.cd := by
  unfold applyReadBad
  dsimp only
  repeat' split
  all_goals simp

@[simp] theorem applyRead_csq_cd (l : Loc) (r : ReadResult) (s : State) : (applyRead l r s).csq.cd = s.csq.cd := by
  unfold applyRead
  repeat' split
  all_goals simp

@[simp] theorem readResult_csq_cd (q : Requester) (l : Loc) (r : ReadResult) (s : State) :
    (readResult q l r s).csq.cd = s.csq.cd := by
  unfold readResult
  dsimp only
  split <;> simp

@[simp] theorem readComplete_csq_cd (r : ReadResult) (s : State) : (readComplete r s).csq.cd = s.csq.cd := by
  unfold readComplete
  repeat' split
  all_goals simp

@[simp] theorem throughLanded_csq_cd (a : Apply) (l : Loc) (p : Prog) (s : State) :
    (throughLanded a l p s).csq.cd = s.csq.cd := by
  simp only [throughLanded, advanceWrite_csq_cd, modSlot_csq_cd]
  split <;> simp

/-- The offers of an atomic WRITE touch the map alone. -/
@[simp] theorem atomicOffers_csq (k : Nat) (b : Word) (ls : List (Nat × Loc)) (acc : List Nat) (s : State) :
    (atomicOffers k b ls (acc, s)).2.csq = s.csq := by
  induction ls generalizing acc s with
  | nil => rfl
  | cons p ls ih =>
    unfold atomicOffers
    rw [ih, offerData_csq]

@[simp] theorem commitLanded_csq_cd (a : Apply) (l : Loc) (p : Prog) (s : State) :
    (commitLanded a l p s).csq.cd = s.csq.cd := by
  unfold commitLanded
  dsimp only
  split <;> simp

@[simp] theorem applyLanded_csq_cd (l : Loc) (p : Prog) (s : State) : (applyLanded l p s).csq.cd = s.csq.cd := by
  unfold applyLanded atomicLanded
  repeat' split
  all_goals simp

@[simp] theorem programComplete_csq_cd (s : State) : (programComplete s).csq.cd = s.csq.cd := by
  unfold programComplete
  repeat' split
  · simp
  · rw [tearProgram_frame]
  all_goals rfl

@[simp] theorem programFailed_csq (s : State) : (programFailed s).csq = s.csq := by
  unfold programFailed
  repeat' split
  all_goals simp

@[simp] theorem holdRetry_csq_cd (q : Requester) (s : State) : (holdRetry q s).csq.cd = s.csq.cd := by
  unfold holdRetry
  repeat' split
  all_goals rfl

@[simp] theorem wbeCaptureOp_csq_cd (b : Bool) (s : State) : (wbeCaptureOp b s).csq.cd = s.csq.cd := by
  unfold wbeCaptureOp
  repeat' split
  all_goals simp

@[simp] theorem ticketLanded_csq_cd (s : State) : (ticketLanded s).csq.cd = s.csq.cd := by
  unfold ticketLanded
  repeat' split
  all_goals simp

@[simp] theorem chooseVictim_csq (s : State) : (chooseVictim s).csq = s.csq := by
  unfold chooseVictim
  repeat' split
  all_goals simp

@[simp] theorem reclaimCopied_csq (s : State) : (reclaimCopied s).csq = s.csq := by
  unfold reclaimCopied
  dsimp only
  repeat' split
  all_goals simp

@[simp] theorem reclaimErased_csq (b : Bool) (s : State) : (reclaimErased b s).csq = s.csq := by
  unfold reclaimErased
  repeat' split
  all_goals simp

@[simp] theorem relocationCopied_csq (s : State) : (relocationCopied s).csq = s.csq := by
  unfold relocationCopied
  dsimp only
  repeat' split
  all_goals simp

@[simp] theorem sleepComplete_csq_cd (s : State) : (sleepComplete s).csq.cd = s.csq.cd := by
  unfold sleepComplete completeSleep
  repeat' split
  all_goals simp

/-! ### Words of the host port -/

@[simp] theorem captureOp_csq_cd (b : Bool) (s : State) : (captureOp b s).csq.cd = s.csq.cd := by
  unfold captureOp
  repeat' split
  all_goals simp

@[simp] theorem consumeData_csq_cd (s : State) : (consumeData s).csq.cd = s.csq.cd := by
  unfold consumeData
  dsimp only
  repeat' split
  all_goals simp

@[simp] theorem applyEffect_csq_cd (e : ReadEffect) (s : State) : (applyEffect e s).csq.cd = s.csq.cd := by
  cases e <;> simp [applyEffect]

@[simp] theorem completeWord_csq_cd (p : WordAddr → Bool) (s : State) : (completeWord p s).csq.cd = s.csq.cd := by
  unfold completeWord
  repeat' split
  all_goals simp

/-! ### The parts of a tick that cannot reset -/

@[simp] theorem abandon_csq_cd (op : PortOp) (s : State) : (abandon op s).csq.cd = s.csq.cd := by
  unfold abandon
  repeat' split
  all_goals simp

@[simp] theorem checkBuffer_csq_cd (b : BufId) (w : Option Nat) (s : State) : (checkBuffer b w s).csq.cd = s.csq.cd := by
  unfold checkBuffer
  repeat' split
  all_goals simp

@[simp] theorem tickQuiet_csq (s : State) : (tickQuiet s).csq = s.csq := by
  unfold tickQuiet
  split <;> rfl

@[simp] theorem tickCoalesce_csq (s : State) : (tickCoalesce s).csq = s.csq := by
  unfold tickCoalesce
  repeat' split
  all_goals rfl

@[simp] theorem tickIdle_csq (s : State) : (tickIdle s).csq = s.csq := by
  unfold tickIdle
  split <;> simp

/-! ### Written registers -/

@[simp] theorem acceptCommand_csq_cd (n : Fin 8) (d : Desc) (s : State) : (acceptCommand n d s).csq.cd = s.csq.cd := by
  simp [acceptCommand]

@[simp] theorem submitWrite_csq_cd (w : Word) (s : State) : (submitWrite w s).csq.cd = s.csq.cd := by
  unfold submitWrite
  repeat' split
  all_goals simp

@[simp] theorem abortSlot_csq_cd (n : Fin 8) (s : State) : (abortSlot n s).csq.cd = s.csq.cd := by
  unfold abortSlot
  split <;> simp

@[simp] theorem abortWrite_csq_cd (w : Word) (s : State) : (abortWrite w s).csq.cd = s.csq.cd := by
  unfold abortWrite
  repeat' split
  all_goals simp

@[simp] theorem retireWrite_csq_cd (w : Word) (s : State) : (retireWrite w s).csq.cd = s.csq.cd := by
  unfold retireWrite retireHead
  dsimp only
  repeat' split
  all_goals simp

@[simp] theorem storeWord_csq_cd (n : Fin 8) (w : Word) (s : State) : (storeWord n w s).csq.cd = s.csq.cd := by
  unfold storeWord
  dsimp only
  split <;> simp

@[simp] theorem dataWrite_csq_cd (w : Word) (s : State) : (dataWrite w s).csq.cd = s.csq.cd := by
  unfold dataWrite
  repeat' split
  all_goals simp

@[simp] theorem evPendingWrite_csq (w : Word) (s : State) : (evPendingWrite w s).csq = s.csq := by
  unfold evPendingWrite
  split <;> simp

@[simp] theorem evEnableWrite_csq (w : Word) (s : State) : (evEnableWrite w s).csq = s.csq := by
  unfold evEnableWrite
  split <;> simp

@[simp] theorem evLevelWrite_csq (w : Word) (s : State) : (evLevelWrite w s).csq = s.csq := by
  unfold evLevelWrite
  split <;> simp

@[simp] theorem faultPendingWrite_csq (w : Word) (s : State) : (faultPendingWrite w s).csq = s.csq := by
  unfold faultPendingWrite
  split <;> simp

@[simp] theorem endOp_csq (w : Word) (s : State) : (endOp w s).csq = s.csq := by
  unfold endOp
  repeat' split
  all_goals simp

@[simp] theorem serviceOp_csq (w : Word) (s : State) : (serviceOp w s).csq = s.csq := by
  unfold serviceOp
  split <;> simp

@[simp] theorem ntcConfigWrite_csq (w : Word) (s : State) : (ntcConfigWrite w s).csq = s.csq := by
  unfold ntcConfigWrite
  split <;> simp

@[simp] theorem quietOp_csq (w : Word) (s : State) : (quietOp w s).csq = s.csq := by
  unfold quietOp
  dsimp only
  repeat' split
  all_goals simp

@[simp] theorem coalesceOp_csq (w : Word) (s : State) : (coalesceOp w s).csq = s.csq := by
  unfold coalesceOp
  dsimp only
  repeat' split
  all_goals simp

@[simp] theorem cachePolicyOp_csq (w : Word) (s : State) : (cachePolicyOp w s).csq = s.csq := by
  unfold cachePolicyOp
  split <;> simp

@[simp] theorem dozeDelayOp_csq (w : Word) (s : State) : (dozeDelayOp w s).csq = s.csq := by
  unfold dozeDelayOp
  dsimp only
  repeat' split
  all_goals simp

@[simp] theorem rejectLogOp_csq (w : Word) (s : State) : (rejectLogOp w s).csq = s.csq := by
  unfold rejectLogOp
  repeat' split
  all_goals simp

/-- A completed write word whose act leaves the staging words leaves them. -/
theorem writeAt_csq_cd {f : State → State} (hf : ∀ s, (f s).csq.cd = s.csq.cd) (a : WordAddr) (s : State) :
    (writeAt a f s).csq.cd = s.csq.cd := by
  unfold writeAt
  dsimp only
  split
  · rw [endUnit_csq_cd]
    split
    · rfl
    · rw [hf]
  · rfl

end Sys2Proof.Machine
end

section
/-!
The resets and what follows them in the same unit. Every reset puts the CSQ at its reset value; with no slot in use, none of
the work and none of the evaluations that a unit still makes changes it again. So each command but the write of a staging
word leaves those words, or the CSQ as reset (R18, R43).
-/

namespace Sys2Proof.Machine

/-! ### The CSQ as reset -/

@[simp] theorem fullReset_csq (k : ResetKind) (s : State) : (fullReset k s).csq = Csq.reset := cutOff_csq _ _

@[simp] theorem partialReset_csq (k : ResetKind) (r : Option (FaultCode × FaultCode)) (s : State) :
    (partialReset k r s).csq = Csq.reset := wakeCause_csq _

theorem slot_of_reset {s : State} (h : s.csq = Csq.reset) (n : Fin 8) : s.slot n = Slot.free := by
  simp [State.slot, h, Csq.reset]

theorem settleSlots_of_reset {s : State} (h : s.csq = Csq.reset) : settleSlots s = s := by
  simp [settleSlots, h, Csq.reset]

theorem assignOne_of_reset {s : State} (h : s.csq = Csq.reset) : assignOne s = s := by
  simp [assignOne, h, Csq.reset, State.nextForBuffer]

theorem releaseRetry_of_reset {s : State} (h : s.csq = Csq.reset) : releaseRetry s = s := by
  simp [releaseRetry, h, Csq.reset]

theorem endUnit_of_reset {s : State} (h : s.csq = Csq.reset) : (endUnit s).csq = Csq.reset := by
  have hm : (evalDraining (evalMedia s)).csq = Csq.reset := by simp [h]
  simp [endUnit, assignBuffers, releaseRetry_of_reset h, assignOne_of_reset hm, settleSlots_of_reset hm, h]

/-- A FREE slot has no word that a tick checks (R53). -/
theorem checkBuffer_of_reset {s : State} (h : s.csq = Csq.reset) (b : BufId) (w : Option Nat) : checkBuffer b w s = s := by
  unfold checkBuffer
  split
  · simp [State.checksWord, slot_of_reset h, Slot.free]
  · rfl

/-! ### Staging words kept, or the CSQ as reset -/

/-- From `s` to `t` the staging words are kept, or a reset has put the whole CSQ at its reset value. -/
def StagingStands (s t : State) : Prop := t.csq.cd = s.csq.cd ∨ t.csq = Csq.reset

namespace StagingStands

variable {s t u : State}

theorem of_csq (h : StagingStands s t) (hu : u.csq = t.csq) : StagingStands s u := by rwa [StagingStands, hu]

theorem endUnit (h : StagingStands s t) : StagingStands s (endUnit t) :=
  h.imp ((endUnit_csq_cd t).trans ·) endUnit_of_reset

theorem settleSlots (h : StagingStands s t) : StagingStands s (settleSlots t) :=
  h.imp ((settleSlots_csq_cd t).trans ·) fun hr => by rwa [settleSlots_of_reset hr]

theorem checkBuffer (h : StagingStands s t) (b : BufId) (w : Option Nat) : StagingStands s (checkBuffer b w t) :=
  h.imp ((checkBuffer_csq_cd b w t).trans ·) fun hr => by rwa [checkBuffer_of_reset hr]

/-- A hard fault leaves the CSQ, or in a collision resets it (R163). -/
theorem raiseHard (h : StagingStands s t) (f : FaultCode) : StagingStands s (raiseHard f t) := by
  unfold Machine.raiseHard
  split
  · exact .inr (partialReset_csq _ _ _)
  · exact h.of_csq (raiseFault_csq f t)

theorem raiseMap (h : StagingStands s t) (l : Loc) : StagingStands s (raiseMap l t) := by
  unfold Machine.raiseMap
  split
  · exact .inr (partialReset_csq _ _ _)
  · exact h.of_csq (raiseFault_csq .f2 t)

theorem tickPowerUp (h : StagingStands s t) : StagingStands s (tickPowerUp t) := by
  unfold Machine.tickPowerUp
  repeat' split
  · refine raiseHard ?_ .f3
    exact h.of_csq rfl
  all_goals exact h.of_csq rfl

theorem mountFault (h : StagingStands s t) (m : Mount) : StagingStands s (mountFault m t) := by
  unfold Machine.mountFault
  dsimp only
  split
  · next l _ =>
    refine (raiseMap h l).of_csq ?_
    repeat' split
    all_goals rfl
  · exact h.of_csq rfl

/-- A unit that acts on everything performed first. -/
theorem unit {f : State → State} (hf : ∀ u, StagingStands u (f u)) (s : State) :
    StagingStands s (Machine.endUnit (f (caughtUp s))) :=
  endUnit ((hf _).imp (·.trans (caughtUp_csq_cd s)) id)

/-- A completed write word, whatever is performed before it (R7). -/
theorem writeAt {f : State → State} (hf : ∀ u, StagingStands u (f u)) (a : WordAddr) (s : State) :
    StagingStands s (writeAt a f (caughtUp s)) := by
  unfold Machine.writeAt
  dsimp only
  split
  · refine endUnit ?_
    split
    · exact .inl (caughtUp_csq_cd s)
    · exact (hf _).imp (·.trans (caughtUp_csq_cd s)) id
  · exact .inl (caughtUp_csq_cd s)

end StagingStands

/-! ### The tick and the end of a mount -/

theorem stagingStands_tickStall (s : State) : StagingStands s (tickStall s) := by
  unfold tickStall
  repeat' split
  · next op _ _ =>
    have hraise : StagingStands s (raiseStall (abandon op s)) :=
      .raiseHard (t := modMount _ (abandon op s)) (.inl (abandon_csq_cd op s)) .f3
    rw [stallOp_eq]
    split
    · exact hraise.of_csq rfl
    · exact hraise
  all_goals exact .inl rfl

/-- The six pieces of a tick's work, in the order of R172. -/
theorem stagingStands_tickOp (w0 w1 : Option Nat) (s : State) : StagingStands s (tickOp w0 w1 s) := by
  have hbuffers : StagingStands s (tickBuffers w0 w1 (tickPowerUp (settleSlots (tickStall s)))) :=
    ((stagingStands_tickStall s).settleSlots.tickPowerUp.checkBuffer .tb0 w0).checkBuffer .tb1 w1
  exact hbuffers.of_csq (by simp [tickOp])

theorem stagingStands_tickWhen (p : State → Bool) (w0 w1 : Option Nat) (s : State) : StagingStands s (tickWhen p w0 w1 s) := by
  unfold tickWhen
  split
  · exact stagingStands_tickOp w0 w1 s
  · exact .inl rfl

/-- MOUNT_END (R144): only step 6 can reset, where F2 collides. -/
theorem stagingStands_mountFinish (s : State) : StagingStands s (mountFinish s) := by
  unfold mountFinish
  repeat' split
  · exact (StagingStands.mountFault (.inl (by simp)) _).of_csq rfl
  all_goals exact .inl rfl

/-! ### Written registers and the pins -/

theorem stagingStands_hostControlOp (w : Word) (s : State) : StagingStands s (hostControlOp w s) := by
  unfold hostControlOp
  dsimp only
  repeat' split
  · exact .inl (by simp)
  · exact .inr (partialReset_csq _ _ _)
  all_goals exact .inl (by simp)

theorem stagingStands_portConfigOp (w : Word) (s : State) : StagingStands s (portConfigOp w s) := by
  unfold portConfigOp
  repeat' split
  · exact .inl (by simp)
  · exact .inl rfl
  · exact .inr (fullReset_csq _ _)
  all_goals exact .inl (by simp)

/-- Among the registers only the staging words are written into the staging words (R18). -/
theorem stagingStands_writeReg {r : Reg} (hr : ∀ n, r ≠ .cd n) (w : Word) (s : State) : StagingStands s (writeReg r w s) := by
  cases r with
  | cd n => exact absurd rfl (hr n)
  | hostControl => exact stagingStands_hostControlOp w s
  | portConfig => exact stagingStands_portConfigOp w s
  | submit => exact .inl (submitWrite_csq_cd w s)
  | abort => exact .inl (abortWrite_csq_cd w s)
  | retire => exact .inl (retireWrite_csq_cd w s)
  | dataPort => exact .inl (dataWrite_csq_cd w s)
  | _ => exact .inl (by simp [writeReg])

theorem stagingStands_pinResetOp (s : State) : StagingStands s (pinResetOp s) := by
  unfold pinResetOp
  split
  · exact .inl rfl
  · exact .inr (fullReset_csq _ _)

@[simp] theorem porEndOp_csq (s : State) : (porEndOp s).csq = s.csq := by
  unfold porEndOp
  split <;> simp

@[simp] theorem pinReleaseOp_csq (s : State) : (pinReleaseOp s).csq = s.csq := by
  unfold pinReleaseOp
  dsimp only
  repeat' split
  all_goals simp

/-! ### The staging words by address -/

/-- The addresses of the staging words are those of Table 12-1. -/
theorem regOf_eq_cd {a : WordAddr} {n : Fin 4} (h : regOf a = some (.cd n)) : a ∈ ([8, 9, 10, 11] : List WordAddr) := by
  have hwf : sparseWf regTable = true := by decide
  unfold regOf at h
  split at h
  · cases h
  · rw [sparseGet_eq_some hwf] at h
    simp only [regTable, List.mem_cons, Prod.mk.injEq, reduceCtorEq, and_false, Reg.cd.injEq, List.not_mem_nil, or_false,
      false_or] at h
    simp only [List.mem_cons, List.not_mem_nil, or_false, ← BitVec.toNat_inj, BitVec.reduceToNat]
    omega

/-- A write at an address outside the staging words. -/
theorem stagingStands_writeAddr {a : WordAddr} (ha : a ∉ ([8, 9, 10, 11] : List WordAddr)) (w : Word) (s : State) :
    StagingStands s (writeAddr a w s) := by
  unfold writeAddr
  split
  · next r hr => exact stagingStands_writeReg (fun n hn => ha (regOf_eq_cd (hn ▸ hr))) w s
  · exact .inl rfl

/-! ### Every command -/

/-- No command but the write of a staging word changes the staging words, unless a reset puts the CSQ at its reset value. The
rows fall into the writes of registers, the resets, the ticks and the end of a mount, in which a hard fault may collide, the
due steps, and the rows of the port and the engines, which cannot reset. -/
theorem exec_stagingStands {c : Instr} (hcd : ∀ n w, c ≠ .cdWrite n w)
    (hreg : ∀ a w, c = .registerWrite a w → a ∉ ([8, 9, 10, 11] : List WordAddr)) (s : State) :
    ∃ t, exec c s = .next t ∧ StagingStands s t := by
  have hwrite {r : Reg} (hr : ∀ n, r ≠ .cd n) (a : WordAddr) (w : Word) :
      StagingStands s (writeAt a (writeReg r w) (caughtUp s)) := .writeAt (stagingStands_writeReg hr w) a s
  cases c with
  | cdWrite n w => exact absurd rfl (hcd n w)
  | registerWrite a w => exact ⟨_, rfl, .writeAt (stagingStands_writeAddr (hreg a w rfl) w) a s⟩
  | dataPortWrite a w =>
    refine ⟨_, rfl, ?_⟩
    split
    · exact hwrite (r := .dataPort) nofun a w
    · exact .inl (caughtUp_csq_cd s)
  | rejectLogClear w => exact ⟨_, rfl, hwrite (r := .rejectLog) nofun _ w⟩
  | submit w => exact ⟨_, rfl, hwrite (r := .submit) nofun _ w⟩
  | abort w => exact ⟨_, rfl, hwrite (r := .abort) nofun _ w⟩
  | retire w => exact ⟨_, rfl, hwrite (r := .retire) nofun _ w⟩
  | wake w | nenWrite w | controllerReset w => exact ⟨_, rfl, hwrite (r := .hostControl) nofun _ w⟩
  | portReset w | portResetRelease w => exact ⟨_, rfl, hwrite (r := .portConfig) nofun _ w⟩
  | evPendingClear w => exact ⟨_, rfl, hwrite (r := .evPending) nofun _ w⟩
  | faultPendingClear w => exact ⟨_, rfl, hwrite (r := .faultPending) nofun _ w⟩
  | endWrite w => exact ⟨_, rfl, hwrite (r := .endReg) nofun _ w⟩
  | serviceWrite w => exact ⟨_, rfl, hwrite (r := .service) nofun _ w⟩
  | quietWrite w => exact ⟨_, rfl, hwrite (r := .quiet) nofun _ w⟩
  | coalesceWrite w => exact ⟨_, rfl, hwrite (r := .coalesce) nofun _ w⟩
  | cachePolicyWrite w => exact ⟨_, rfl, hwrite (r := .cachePolicy) nofun _ w⟩
  | dozeDelayWrite w => exact ⟨_, rfl, hwrite (r := .dozeDelay) nofun _ w⟩
  | por => exact ⟨_, rfl, .unit (fun u => .inr (fullReset_csq .por u)) s⟩
  | pinReset => exact ⟨_, rfl, .unit stagingStands_pinResetOp s⟩
  | mountEnd => exact ⟨_, rfl, .unit stagingStands_mountFinish s⟩
  | tick w0 w1 | stallLimit w0 w1 | powerupStall w0 w1 | quietEnd w0 w1 | coalesceTimeout w0 w1 | dozeIntentArm w0 w1 =>
    exact ⟨_, rfl, .unit (stagingStands_tickWhen _ w0 w1) s⟩
  | read | writeCached _ | writeThrough _ | writeAtomic _ | trim | prefetch | discard | clean | flush | purge | sync
  | describe | healthCounters | healthDefectList | sleep | eraseAll | lineWaitEnd | reclaimForegroundEnd | dozeEntry =>
    exact ⟨_, rfl, .inl (dueRow_csq_cd _ _ s)⟩
  | frameStart | frameTypeDecode _ _ _ | statePoll | readWordCapture _ | frameEnd | dataPortRead | claim | applyStep _
  | mediaPortGrant | mediaReadComplete _ | mediaProgramComplete | programFail | wbeCapture _ | ticketComplete
  | sleepCompletion | mediaReady | porEnd | pinResetRelease | mountMetadataReadComplete _ | mountReeraseComplete _
  | reclaimVictimChoice | reclaimCopyComplete | reclaimEraseComplete _ | relocationCopyComplete =>
    exact ⟨_, rfl, .inl (by simp)⟩

/-! ### The write of a staging word -/

/-- Outside CD0's reserved bits no bit of a written word is checked (R17, R18). -/
theorem cdOp_stored {n : Fin 4} {w : Word} (h : n ≠ 0 ∨ w &&& 0xE000E000 = 0) (s : State) :
    cdOp n w s = { s with csq := { s.csq with cd := s.csq.cd.set n.val w n.isLt } } := by
  refine if_neg fun hc => ?_
  obtain ⟨hn, hw⟩ := (Bool.and_eq_true _ _).mp hc
  have hclear := (clearIn_iff cd0Reserved w).2 (h.resolve_left (not_not.2 (of_decide_eq_true hn)))
  rw [hclear] at hw
  cases hw

theorem cdOp_refused {w : Word} (h : w &&& 0xE000E000 ≠ 0) (s : State) :
    cdOp 0 w s = reject .badRegisterValue 0x08 0 s := by
  have hclear : clearIn cd0Reserved w = false := Bool.eq_false_iff.2 fun hc => h ((clearIn_iff _ w).1 hc)
  simp [cdOp, hclear, badValue]

theorem exec_cdWrite {n : Fin 4} {s : State} (h : s.Serves (cdAddr n)) (w : Word) :
    exec (.cdWrite n w) s = .next (endUnit (cdOp n w s.counted)) := by
  have hrest : s.AtRest := h.1.1
  change execCdWrite n w s = _
  rw [execCdWrite, caughtUp_atRest hrest, writeAt_serves _ h]

theorem exec_submit_csq_cd {w : Word} {s t : State} (h : exec (.submit w) s = .next t) : t.csq.cd = s.csq.cd := by
  cases h
  exact (writeAt_csq_cd (submitWrite_csq_cd w) _ _).trans (caughtUp_csq_cd s)

theorem cd_of_reset {s : State} (h : s.csq = Csq.reset) (n : Fin 4) : s.csq.cd[n] = 0 := by simp [h, Csq.reset]

/-- Settles O35: a served write stores its word unless it sets a reserved bit of CD0; every other command keeps the staging
words or resets the CSQ (`exec_stagingStands`), SUBMIT keeps them always, and the CSQ as reset holds 0 in all four. -/
theorem stagingWordsKeepTheirContents : Obligations.StagingWordsKeepTheirContents := by
  refine ⟨fun s n w hs => ⟨?_, fun h => ?_⟩, fun _ _ => rfl, fun c s t hcd hreg h => ?_, fun _ _ _ => exec_submit_csq_cd,
    fun s k r n => ⟨cd_of_reset (fullReset_csq k s) n, cd_of_reset (partialReset_csq k r s) n⟩⟩
  · rintro rfl hw
    rw [exec_cdWrite hs, cdOp_refused hw]
  · rw [exec_cdWrite hs, cdOp_stored h]
    rfl
  · obtain ⟨u, hu, hstands⟩ := exec_stagingStands hcd hreg s
    cases hu.symm.trans h
    exact hstands

end Sys2Proof.Machine
end

section
/-!
The write to END (R154): its outcome for a word other than 0, for a stack with an entry and for an empty stack, and that a
served word reaches it on the state in which the port has counted it. Together they settle EndPopsServiceStack.
-/

namespace Sys2Proof.Machine

/-- A word other than 0 is refused, and neither pops the stack nor raises F1 (R154, R17). -/
theorem endOp_refused {w : Word} (hw : w ≠ 0) (s : State) : endOp w s = reject .badRegisterValue 0x25 0 s :=
  if_pos (bne_iff_ne.2 hw)

/-- The most recent entry of the stack becomes the current level (R154). -/
theorem endOp_pop {s : State} {l : Nat} {rest : List Nat} (hs : s.ntc.stack = l :: rest) :
    endOp 0 s = { s with ntc := { s.ntc with level := l, stack := rest } } := by
  simp [endOp, hs]

/-- On an empty stack F1 is raised; the level and the stack stand (R154). -/
theorem endOp_empty {s : State} (hs : s.ntc.stack = []) : endOp 0 s = setFault .f1 s := by
  simp [endOp, hs]

/-- F1 is bit 0 of the fault flags (R150). -/
theorem setFault_f1 (s : State) : setFault .f1 s = { s with ntc := { s.ntc with faults := s.ntc.faults ||| 1 } } := rfl

/-- A served word at END has its effect in the unit of the write. -/
theorem exec_endWrite {s : State} (h : s.Serves 0x25) (w : Word) :
    exec (.endWrite w) s = .next (endUnit (endOp w s.counted)) := by
  have hrest : s.AtRest := h.1.1
  change execEndWrite w s = _
  rw [execEndWrite, caughtUp_atRest hrest, writeAt_serves _ h]

/-- Settles O31: a served word reaches `endOp` (`exec_endWrite`), whose cases are the pop, F1 on an empty stack and the refusal;
counting the word leaves the notification controller as it is, and END has no value to read. -/
theorem endPopsServiceStack : Obligations.EndPopsServiceStack := by
  intro s w h
  rw [exec_endWrite h]
  have hntc : s.counted.ntc = s.ntc := rfl
  refine ⟨fun l rest hw hs => ?pop, fun hw hs => ?empty, fun hw => ?refused, rfl⟩
  case pop => rw [hw, endOp_pop (hntc ▸ hs), hntc]
  case empty => rw [hw, endOp_empty (hntc ▸ hs), setFault_f1, hntc]
  case refused => rw [endOp_refused hw]

end Sys2Proof.Machine
end

section
/-! The statements of the family 'other'. Their proofs are elaborated one after another, as the tests above are: proofs that
run side by side hold their memory at the same time, and the whole text is compiled under a limit. -/

set_option Elab.async false

section
/-!
The relation `Work`, said once for every operation: what a unit does, apart from the resets, the completion of a ticket and
the words of the host, keeps each of the invariants of configuration, service stack and stores, and a ticket in flight
(R92). `vitals` is the part of the state on which these depend.
-/

namespace Sys2Proof.Machine

/-! ### What the invariants depend on -/

/-- The part of the state that the invariants `ConfigSound`, `ServiceSound` and `StoresSound` read, and the ticket. -/
structure Vitals where
  captured : Option Captured
  frame : Option FrameType
  phase : FramePhase
  high : BitVec 6
  low : BitVec 6
  ticket : Option Ticket
  threshold : BitVec 4
  unannounced : Nat
  evLevel : BitVec 27
  level : Nat
  stack : List Nat
  flash : List (Nat × Cell)
  map : FolioMap
  groups : List (Nat × Group)

def State.vitals (s : State) : Vitals :=
  { captured := s.hpi.captured, frame := s.hpi.frame, phase := s.hpi.phase, high := s.fc.high, low := s.fc.low
    ticket := s.fc.ticket, threshold := s.ntc.threshold, unannounced := s.ntc.unannounced, evLevel := s.ntc.evLevel
    level := s.ntc.level, stack := s.ntc.stack, flash := s.mm.flash, map := s.mm.map, groups := s.mm.groups }

/-- From `s` to `t` the three invariants are kept. -/
structure Keeps (s t : State) : Prop where
  config : s.ConfigSound → t.ConfigSound
  service : s.ConfigSound → s.ServiceSound → t.ServiceSound
  stores : s.StoresSound → t.StoresSound

/-- From `s` to `t` the three invariants are kept, and so is a ticket in flight. -/
structure Work (s t : State) : Prop extends Keeps s t where
  ticket : ∀ k, s.fc.ticket = some k → t.fc.ticket = some k

variable {s t u : State}

theorem Keeps.trans (h : Keeps s t) (g : Keeps t u) : Keeps s u :=
  ⟨g.config ∘ h.config, fun hc hs => g.service (h.config hc) (h.service hc hs), g.stores ∘ h.stores⟩

theorem Work.refl (s : State) : Work s s := ⟨⟨id, fun _ => id, id⟩, fun _ => id⟩

theorem Work.trans (h : Work s t) (g : Work t u) : Work s u :=
  ⟨h.toKeeps.trans g.toKeeps, fun k hk => g.ticket k (h.ticket k hk)⟩

theorem captureSound_congr (hc : u.hpi.captured = t.hpi.captured) (hf : u.hpi.frame = t.hpi.frame)
    (hp : u.hpi.phase = t.hpi.phase) (hl : u.ntc.level = t.ntc.level) (hs : u.ntc.stack = t.ntc.stack) :
    u.captureSound = t.captureSound := by
  have hclaim (e : ReadEffect) : e.claimSound u.ntc = e.claimSound t.ntc := by
    cases e <;> simp [ReadEffect.claimSound, hl, hs]
  simp only [State.captureSound, hc, hf, hp, hclaim]

theorem Work.of_vitals (h : u.vitals = t.vitals) : Work t u := by
  simp only [State.vitals, Vitals.mk.injEq] at h
  obtain ⟨hcap, hframe, hphase, hhigh, hlow, hticket, hthr, hun, hlev, hlevel, hstack, hflash, hmap, hgroups⟩ := h
  have hcapture := captureSound_congr hcap hframe hphase hlevel hstack
  refine ⟨⟨fun hc => ?_, fun _ hs => ?_, fun hs => ?_⟩, fun k hk => hticket.trans hk⟩
  · simpa only [State.ConfigSound, Ntc.levelOf, hhigh, hlow, hthr, hun, hlev] using hc
  · simpa only [State.ServiceSound, hlevel, hstack, hcapture] using hs
  · simpa only [State.StoresSound, hflash, hmap, hgroups] using hs

/-- An operation that leaves the vitals alone is work. -/
theorem Work.same (h : Work s t) (hv : u.vitals = t.vitals) : Work s u := h.trans (.of_vitals hv)

/-! ### The stores -/

theorem Work.of_stores (hv : u.vitals = { t.vitals with flash := u.mm.flash, map := u.mm.map, groups := u.mm.groups })
    (hs : t.StoresSound → u.StoresSound) : Work t u := by
  have h : Work t { t with mm := { t.mm with flash := u.mm.flash, map := u.mm.map, groups := u.mm.groups } } :=
    ⟨⟨id, fun _ => id, hs⟩, fun _ => id⟩
  exact h.same hv

theorem Work.putEntry (h : Work s t) (f : Nat) (e : MapEntry) : Work s (putEntry f e t) :=
  h.trans (.of_stores rfl fun ⟨hf, hm, hg⟩ => ⟨hf, putEntry_map_wf f e t hm, hg⟩)

theorem Work.putGroup (h : Work s t) (g : Nat) (x : Group) : Work s (putGroup g x t) :=
  h.trans (.of_stores rfl fun ⟨hf, hm, hg⟩ => ⟨hf, hm, putGroup_groups_wf g x t hg⟩)

theorem Work.putCell (h : Work s t) (l : Loc) (p : Prog) (c : Bool) : Work s (putCell l p c t) :=
  h.trans (.of_stores rfl fun ⟨hf, hm, hg⟩ => ⟨putCell_flash_wf l p c t hf, hm, hg⟩)

theorem Work.landCopy (h : Work s t) (src dst : Loc) : Work s (landCopy src dst t) :=
  h.trans (.of_stores rfl fun ⟨hf, hm, hg⟩ => ⟨hf, FolioMap.moveTarget_wf _ src dst hm, hg⟩)

theorem Work.eraseGroup (h : Work s t) (g : Nat) : Work s (eraseGroup g t) := by
  refine Work.putGroup (h.trans ?_) g _
  exact .of_stores rfl fun ⟨hf, hm, hg⟩ => ⟨sparseWf_filter _ hf, hm, hg⟩

/-! ### Counted completions -/

theorem Work.countCompletion (h : Work s t) (p : Bool) : Work s (countCompletion p t) := by
  refine h.trans ⟨⟨fun hc => ?_, fun _ hs => ?_, fun hs => ?_⟩, fun k hk => ?_⟩
  · obtain ⟨hpolicy, ⟨hlow, hhigh, hun⟩, hlevels⟩ := hc
    unfold Machine.countCompletion
    split
    · exact ⟨hpolicy, ⟨hlow, hhigh, hlow⟩, hlevels⟩
    · next hne =>
      have hne : t.ntc.unannounced + 1 ≠ t.ntc.threshold.toNat := fun he => hne (by simp [he])
      exact ⟨hpolicy, ⟨hlow, hhigh, by dsimp only; omega⟩, hlevels⟩
  all_goals
    unfold Machine.countCompletion
    split <;> assumption

end Sys2Proof.Machine
end

section
/-! `Work` for every operation on slots, buffers, reservations, the media and the lines, and for the end of a unit. -/

namespace Sys2Proof.Machine

variable {s t u : State}

theorem Work.ite (p : Prop) [Decidable p] {a b : State} (ha : Work s a) (hb : Work s b) : Work s (if p then a else b) := by
  split <;> assumption

/-- A fold of operations that are work. -/
theorem Work.foldl {α : Type} {f : State → α → State} (hf : ∀ {t}, Work s t → ∀ a, Work s (f t a)) (h : Work s t)
    (l : List α) : Work s (l.foldl f t) := by
  induction l generalizing t with
  | nil => exact h
  | cons a l ih => exact ih (hf h a)

/-! ### Slots and buffers -/

theorem setBuf_vitals (b : BufId) (x : Buffer) (s : State) : (setBuf b x s).vitals = s.vitals := by cases b <;> rfl

theorem placeFolio_vitals (n : Fin 8) (d : FolioData) (s : State) : (placeFolio n d s).vitals = s.vitals := by
  unfold placeFolio
  split
  · exact setBuf_vitals _ _ s
  · rfl

theorem Work.reject (h : Work s t) (r : RejectReason) (a b : Byte) : Work s (reject r a b t) := by
  unfold Machine.reject
  split
  · exact h
  · exact h.same rfl

/-- The state in which the end of slot `n`'s command is to be counted (R35, steps 1 to 3). -/
def recorded (n : Fin 8) (st : Status) (k : Nat) (s : State) : State :=
  let r := s.recordOf n st k
  { s with
    csq := { s.csq with
      slots := s.csq.slots.set n.val { s.slot n with
        state := .done, status := st, foliosDone := k, flags := r.flags, detail := r.detail, triples := [] } n.isLt
      completions := s.csq.completions ++ [r]
      apply := if s.csq.apply.any (fun a => a.slot == n) then none else s.csq.apply }
    dp := (releaseBuffer n s).dp }

theorem releaseBuffer_modSlot (n : Fin 8) (f : Slot → Slot) (s : State) :
    releaseBuffer n (modSlot n f s) = { modSlot n f s with dp := (releaseBuffer n s).dp } := by
  have hbuf : (modSlot n f s).bufOf n = s.bufOf n := rfl
  unfold releaseBuffer
  rw [hbuf]
  by_cases ho : s.dp.owner = some n
  · rcases s.bufOf n with _ | _ | _ <;> simp [setBuf, ho]
  · rcases s.bufOf n with _ | _ | _ <;> simp [setBuf, ho]
    rfl

/-- The end of a command is its record and the counting of it (R35). -/
theorem completeSlot_eq (n : Fin 8) (st : Status) (k : Nat) (s : State) :
    completeSlot n st k s = countCompletion (st != .ok || (s.slot n).desc.urgent) (recorded n st k s) := by
  have happly : (modSlot n (fun sl => { sl with
      state := .done, status := st, foliosDone := k, flags := (s.recordOf n st k).flags
      detail := (s.recordOf n st k).detail, triples := [] }) s).csq.apply = s.csq.apply := rfl
  unfold completeSlot recorded
  simp only [releaseBuffer_modSlot, happly]
  congr 1
  cases ha : s.csq.apply with
  | none => simp [modSlot, setSlot, ha]
  | some a => by_cases h : a.slot = n <;> simp [modSlot, setSlot, setApply, ha, h]

theorem Work.completeSlot (h : Work s t) (n : Fin 8) (st : Status) (k : Nat) : Work s (completeSlot n st k t) := by
  rw [completeSlot_eq]
  exact (h.same (u := recorded n st k t) rfl).countCompletion _

theorem Work.settleSlot (h : Work s t) (n : Fin 8) : Work s (settleSlot n t) := .ite _ (h.completeSlot n _ _) h

theorem Work.settleSlots (h : Work s t) : Work s (settleSlots t) :=
  .foldl (fun h n => .ite _ (h.settleSlot n) h) (.foldl (fun h n => .ite _ h (h.settleSlot n)) h _) _

theorem Work.finishApply (h : Work s t) (n : Fin 8) (st : Status) (k : Nat) : Work s (finishApply n st k t) :=
  h.settleSlots.completeSlot n st k

theorem assignOne_vitals (s : State) : (assignOne s).vitals = s.vitals := by rw [assignOne_frame]; rfl

theorem chooseOwner_vitals (s : State) : (chooseOwner s).vitals = s.vitals := by
  unfold chooseOwner
  repeat' split
  all_goals rfl

/-! ### Reservations and faults -/

theorem breakWhere_vitals (p : Rsv → Bool) (c : BreakCause) (s : State) : (breakWhere p c s).vitals = s.vitals := by
  unfold breakWhere
  split <;> rfl

theorem createRsv_vitals (r : Rsv) (s : State) : (createRsv r s).vitals = s.vitals := by
  unfold createRsv
  dsimp only
  repeat' split
  all_goals rfl

theorem Work.breakWhere (h : Work s t) (p : Rsv → Bool) (c : BreakCause) : Work s (breakWhere p c t) :=
  h.same (breakWhere_vitals p c t)

theorem Work.raiseFault (h : Work s t) (f : FaultCode) : Work s (raiseFault f t) :=
  (h.same (u := setFault f t) rfl).breakWhere _ _

/-! ### The media -/

theorem Work.setEvent (h : Work s t) (e : Event) : Work s (setEvent e t) := h.same rfl

theorem Work.clearPort (h : Work s t) : Work s (clearPort t) := h.same rfl

theorem Work.vacateRole (h : Work s t) (g : Nat) : Work s (vacateRole g t) := h.same rfl

theorem Work.endVictim (h : Work s t) (g : Nat) : Work s (endVictim g t) := h.same rfl

theorem Work.offerData (h : Work s t) (f : Nat) (q : Word) (l : Loc) : Work s (offerData f q l t) :=
  .ite _ (h.putEntry f _) h

theorem Work.poisonFolio (h : Work s t) (f : Nat) : Work s (poisonFolio f t) :=
  .ite _ h ((h.putEntry f _).breakWhere _ _)

theorem Work.clearPoison (h : Work s t) (f : Nat) : Work s (clearPoison f t) := .ite _ (h.putEntry f _) h

theorem Work.poisonTarget (h : Work s t) (l : Loc) : Work s (poisonTarget l t) := by
  unfold Machine.poisonTarget
  split
  · exact .ite _ (h.poisonFolio _) h
  · exact h

theorem Work.openGroup (h : Work s t) (g : Nat) : Work s (openGroup g t) := h.putGroup g _

theorem Work.takeReclaimOpen (h : Work s t) : Work s (takeReclaimOpen t) := by
  unfold Machine.takeReclaimOpen
  repeat' split
  · refine Work.openGroup ?_ _
    exact h.same rfl
  all_goals exact h

theorem Work.takeHostOpen (h : Work s t) : Work s (takeHostOpen t) := by
  unfold Machine.takeHostOpen
  repeat' split
  · refine Work.openGroup ?_ _
    exact h.same rfl
  all_goals exact h

theorem Work.advancePosition (h : Work s t) (l : Loc) : Work s (advancePosition l t) :=
  .ite _ ((h.putGroup _ _).vacateRole _) (h.putGroup _ _)

theorem Work.landProgram (h : Work s t) (l : Loc) (p : Prog) : Work s (landProgram l p t) :=
  (h.clearPort.putCell l p true).advancePosition l

theorem Work.tearProgram (h : Work s t) (l : Loc) (p : Prog) : Work s (tearProgram l p t) :=
  (h.clearPort.putCell l p false).advancePosition l

theorem reserveFell_vitals (s : State) : (reserveFell s).vitals = s.vitals := by
  rw [reserveFell_frame]
  simp only [State.vitals]

theorem addDefect_vitals (g : Nat) (o : Origin) (s : State) : (addDefect g o s).vitals = s.vitals := by
  rw [addDefect_frame]
  simp only [State.vitals]

theorem Work.reserveFell (h : Work s t) : Work s (reserveFell t) := h.same (reserveFell_vitals t)

theorem Work.retireGroup (h : Work s t) (g : Nat) (o : Origin) : Work s (retireGroup g o t) :=
  ((h.putGroup g _).same (addDefect_vitals g o _)).setEvent .media

theorem Work.retiringGroup (h : Work s t) (g : Nat) (o : Origin) : Work s (retiringGroup g o t) :=
  (((h.putGroup g _).vacateRole g).setEvent .media).reserveFell

theorem Work.failProgram (h : Work s t) (o : Origin) (l : Loc) (p : Prog) : Work s (failProgram o l p t) :=
  ((h.clearPort.putCell l p false).putGroup _ _).retiringGroup _ o

theorem Work.programLost (h : Work s t) (o : Origin) (q : Requester) (l : Loc) (p : Prog) : Work s (programLost o q l p t) :=
  .ite _ (h.tearProgram l p) (h.failProgram o l p)

theorem Work.failErase (h : Work s t) (g : Nat) (o : Origin) : Work s (failErase g o t) :=
  ((h.clearPort.retireGroup g o).endVictim g).reserveFell

theorem countRead_vitals (r : ReadResult) (s : State) : (countRead r s).vitals = s.vitals := by cases r <;> rfl

theorem offerWorn_vitals (l : Loc) (k : Nat) (s : State) : (offerWorn l k s).vitals = s.vitals := by
  unfold offerWorn offerRelocation
  repeat' split
  all_goals rfl

theorem Work.reclaimProgress (h : Work s t) : Work s (reclaimProgress t) := by
  unfold Machine.reclaimProgress
  dsimp only
  repeat' split
  · exact h
  · exact h
  · exact h.same rfl
  · exact (h.retireGroup _ _).endVictim _
  · exact ((h.retireGroup _ _).endVictim _).reserveFell
  · exact h.same rfl

/-! ### Lines -/

theorem enlist_vitals (l : Fin 32) (s : State) : (enlist l s).vitals = s.vitals := by
  unfold enlist
  split <;> rfl

theorem givePartial_vitals (m : Option (Fin 8)) (s : State) : (givePartial m s).vitals = s.vitals := by cases m <;> rfl

theorem Work.invalidate (h : Work s t) (l : Fin 32) : Work s (invalidate l t) := h.same rfl

theorem Work.invalidateAll (h : Work s t) (ls : List (Fin 32)) : Work s (invalidateAll ls t) := .foldl invalidate h ls

theorem Work.setLine (h : Work s t) (l : Fin 32) (x : Line) : Work s (setLine l x t) := h.same rfl

theorem Work.touch (h : Work s t) (l : Fin 32) : Work s (touch l t) := h.same rfl

theorem Work.writeDirty (h : Work s t) (l : Fin 32) (f : Nat) (d : FolioData) : Work s (writeDirty l f d t) :=
  (((((h.same (givePartial_vitals _ t)).setLine l _).same (enlist_vitals l _)).touch l).clearPoison f)

theorem writeClean_vitals (l : Fin 32) (f : Nat) (d : FolioData) (s : State) : (writeClean l f d s).vitals = s.vitals := by
  rw [writeClean_frame]
  rfl

theorem cacheUpdate_vitals (f : Nat) (d : FolioData) (s : State) : (cacheUpdate f d s).vitals = s.vitals := by
  rw [cacheUpdate_frame]
  rfl

theorem voidTicket_vitals (l : Fin 32) (s : State) : (voidTicket l s).vitals = s.vitals := by
  rw [voidTicket_frame]
  rfl

theorem Work.dirtyLineError (h : Work s t) (l : Fin 32) : Work s (dirtyLineError l t) :=
  (((h.invalidate l).same (voidTicket_vitals l _)).poisonFolio _).raiseFault .f4

theorem Work.lineError (h : Work s t) (l : Fin 32) : Work s (lineError l t) :=
  .ite _ (h.dirtyLineError l) ((h.invalidate l).raiseFault .f4)

theorem dropStale_vitals (k : Ticket) (s : State) : (dropStale k s).vitals = s.vitals := by
  unfold dropStale
  repeat' split
  all_goals rfl

theorem settleOwnLine_vitals (k : Ticket) (s : State) : (settleOwnLine k s).vitals = s.vitals := by
  unfold settleOwnLine purgeLine
  dsimp only
  repeat' split
  all_goals rfl

/-! ### Power, and the end of a unit -/

theorem wakeCause_vitals (s : State) : (wakeCause s).vitals = s.vitals := by
  rw [wakeCause_frame]
  rfl

theorem settleMediaPower_vitals (s : State) : (settleMediaPower s).vitals = s.vitals := by
  rw [settleMediaPower_frame]
  rfl

theorem enterSleep_vitals (s : State) : (enterSleep s).vitals = s.vitals := breakWhere_vitals _ _ _

theorem Work.evalMedia (h : Work s t) : Work s (evalMedia t) :=
  .ite _ h (h.takeReclaimOpen.takeHostOpen.same rfl)

theorem releaseRetry_vitals (s : State) : (releaseRetry s).vitals = s.vitals := by
  rw [releaseRetry_frame]
  rfl

theorem Work.endUnit (h : Work s t) : Work s (endUnit t) := by
  have hmedia : Work s (evalDraining (Machine.evalMedia (releaseRetry t))) := (h.same (releaseRetry_vitals t)).evalMedia.same rfl
  have hbuffers := hmedia.same ((assignOne_vitals _).trans (assignOne_vitals _))
  exact ((hbuffers.settleSlots.same (chooseOwner_vitals _)).same (settleMediaPower_vitals _)).same rfl

end Sys2Proof.Machine
end

section
/-! `Work` for the starts of commands, the steps of an apply and everything that is due. -/

namespace Sys2Proof.Machine

variable {s t : State}

/-! ### The start of a command -/

theorem Work.setSlot (h : Work s t) (n : Fin 8) (x : Slot) : Work s (setSlot n x t) := h.same rfl

theorem Work.modSlot (h : Work s t) (n : Fin 8) (f : Slot → Slot) : Work s (modSlot n f t) := h.setSlot n _

theorem Work.setApply (h : Work s t) (a : Option Apply) : Work s (setApply a t) := h.same rfl

theorem Work.placeFolio (h : Work s t) (n : Fin 8) (d : FolioData) : Work s (placeFolio n d t) :=
  h.same (placeFolio_vitals n d t)

theorem Work.createRsv (h : Work s t) (r : Rsv) : Work s (createRsv r t) := h.same (createRsv_vitals r t)

theorem Work.writeBufferError (h : Work s t) (n : Fin 8) : Work s (writeBufferError n t) :=
  ((h.raiseFault .f4).modSlot n _).completeSlot n _ _

/-- A captured word whose consumption is dropped claims nothing. -/
theorem Work.dropConsumption (h : Work s t) : Work s (dropConsumption t) := by
  refine h.trans ?_
  unfold Machine.dropConsumption
  split
  · next c hc =>
    split
    · refine ⟨⟨id, fun _ ⟨hdepth, hle, hpair, hcap⟩ => ⟨hdepth, hle, hpair, ?_⟩, id⟩, fun _ => id⟩
      simp only [State.captureSound, hc, Bool.and_eq_true] at hcap ⊢
      exact ⟨hcap.1, rfl⟩
    · exact .refl t
  · exact .refl t

theorem Work.readBufferError (h : Work s t) (n : Fin 8) : Work s (readBufferError n t) :=
  Work.completeSlot (.ite _ (h.raiseFault .f4).dropConsumption (h.raiseFault .f4)) n _ _

theorem Work.endPlacing (h : Work s t) (n : Fin 8) : Work s (endPlacing n t) :=
  .ite _ (h.finishApply n _ _)
    (.ite _ ((((h.setApply none).modSlot n _).createRsv _).modSlot n _) ((h.setApply none).modSlot n _))

theorem Work.enterApply (h : Work s t) (n : Fin 8) (k : StartKind) (w : Wait) : Work s (enterApply n k w t) :=
  (h.modSlot n _).setApply _

theorem Work.beginApply (h : Work s t) (n : Fin 8) (k : StartKind) : Work s (beginApply n k t) := h.enterApply n k _

theorem Work.consumeRsv (h : Work s t) (k : Byte) (a c : Nat) : Work s (consumeRsv k a c t) := h.same rfl

theorem Work.writeRsvActions (h : Work s t) (d : Desc) : Work s (writeRsvActions d t) :=
  Work.breakWhere (.ite _ (h.consumeRsv _ _ _) h) _ _

theorem Work.startWrite (h : Work s t) (n : Fin 8) (k : StartKind) (b : Bool) : Work s (startWrite n k b t) :=
  .ite _ (h.writeBufferError n)
    (.ite _ (h.completeSlot n _ _) (.ite _ (h.completeSlot n _ _) ((h.beginApply n k).writeRsvActions _)))

theorem Work.commitTrim (h : Work s t) (n : Fin 8) : Work s (commitTrim n t) :=
  .ite _ (h.completeSlot n _ _) ((h.beginApply n .trim).breakWhere _ _)

theorem Work.commitEraseAll (h : Work s t) (n : Fin 8) : Work s (commitEraseAll n t) :=
  .ite _ (h.completeSlot n _ _) ((h.beginApply n .eraseAll).breakWhere _ _)

theorem Work.commitDiscard (h : Work s t) (n : Fin 8) : Work s (commitDiscard n t) :=
  (h.beginApply n .discard).breakWhere _ _

theorem Work.endSettling (h : Work s t) (n : Fin 8) : Work s (endSettling n t) := (h.modSlot n _).settleSlots

theorem Work.commitClean (h : Work s t) (n : Fin 8) : Work s (commitClean n t) := (h.modSlot n _).endSettling n

theorem Work.commitFlush (h : Work s t) (n : Fin 8) : Work s (commitFlush n t) := (h.modSlot n _).endSettling n

theorem Work.purgeExamine (h : Work s t) (n : Fin 8) (l : Fin 32) : Work s (purgeExamine n l t) := by
  unfold Machine.purgeExamine
  dsimp only
  split
  · exact (h.invalidate l).modSlot n _
  · exact (h.same (givePartial_vitals _ t)).setLine l _
  all_goals exact h

theorem Work.commitPurge (h : Work s t) (n : Fin 8) : Work s (commitPurge n t) :=
  ((Work.foldl (fun h l => h.purgeExamine n l) h _).modSlot n _).endSettling n

theorem Work.commitSync (h : Work s t) (n : Fin 8) : Work s (commitSync n t) := (h.modSlot n _).endSettling n

theorem Work.commitRecord (h : Work s t) (n : Fin 8) (w : Word) (d : FolioData) : Work s (commitRecord n w d t) :=
  ((h.modSlot n _).placeFolio n d).endPlacing n

theorem Work.commitSleep (h : Work s t) (n : Fin 8) : Work s (commitSleep n t) := (h.modSlot n _).enterApply n _ _

theorem Work.startSlot (h : Work s t) (n : Fin 8) (b : Bool) : Work s (startSlot n b t) := by
  unfold Machine.startSlot
  split
  · exact h.beginApply n _
  · exact h.startWrite n _ b
  · exact h.startWrite n _ b
  · exact h.startWrite n _ b
  · exact h.commitTrim n
  · exact h.beginApply n _
  · exact h.commitDiscard n
  · exact h.commitClean n
  · exact h.commitFlush n
  · exact h.commitPurge n
  · exact h.commitSync n
  · exact h.commitRecord n _ _
  · exact h.commitRecord n _ _
  · exact h.commitRecord n _ _
  · exact h.commitSleep n
  · exact h.commitEraseAll n

/-! ### The steps of an apply -/

theorem Work.nextStep (h : Work s t) (a : Apply) : Work s (nextStep a t) := h.setApply _

theorem Work.requestMedia (h : Work s t) (a : Apply) (r : MediaReq) : Work s (requestMedia a r t) := h.setApply _

theorem Work.takeSeq (h : Work s t) (k : Nat) : Work s (takeSeq k t) := h.same rfl

theorem Work.allocFilling (h : Work s t) (l : Fin 32) (f : Nat) : Work s (allocFilling l f t) := h.setLine l _

theorem Work.cacheUpdate (h : Work s t) (f : Nat) (d : FolioData) : Work s (cacheUpdate f d t) :=
  h.same (cacheUpdate_vitals f d t)

theorem Work.finishCount (h : Work s t) (a : Apply) : Work s (finishCount a t) := h.finishApply _ _ _

theorem Work.advanceWrite (h : Work s t) (a : Apply) : Work s (advanceWrite a t) := .ite _ (h.nextStep a) (h.finishCount a)

theorem Work.advanceRead (h : Work s t) (a : Apply) : Work s (advanceRead a t) := .ite _ (h.nextStep a) (h.endPlacing _)

theorem Work.advancePrefetch (h : Work s t) (a : Apply) : Work s (advancePrefetch a t) :=
  .ite _ (h.nextStep a) (h.finishApply _ _ _)

theorem Work.readUnreadable (h : Work s t) (a : Apply) (f : Nat) : Work s (readUnreadable a f t) :=
  (h.modSlot _ _).endPlacing _

theorem Work.readMiss (h : Work s t) (a : Apply) (f : Nat) : Work s (readMiss a f t) := by
  unfold Machine.readMiss
  split
  · exact ((h.modSlot _ _).placeFolio _ _).advanceRead a
  · exact ((h.modSlot _ _).placeFolio _ _).advanceRead a
  · exact h.readUnreadable a f
  · split
    · exact (h.allocFilling _ f).requestMedia a _
    · exact h.requestMedia a _

theorem Work.readStep (h : Work s t) (a : Apply) (b : Bool) : Work s (readStep a b t) := by
  unfold Machine.readStep
  split
  · exact .ite _ ((h.lineError _).readMiss a _) (((h.touch _).placeFolio _ _).advanceRead a)
  · exact h.readMiss a _

theorem Work.prefetchStep (h : Work s t) (a : Apply) : Work s (prefetchStep a t) := by
  unfold Machine.prefetchStep
  split
  · exact h.advancePrefetch a
  · split
    · exact (h.allocFilling _ _).requestMedia a _
    · exact h.finishApply _ _ _

theorem Work.cachedStep (h : Work s t) (a : Apply) : Work s (cachedStep a t) := by
  unfold Machine.cachedStep
  dsimp only
  repeat' split
  · exact (h.writeDirty _ _ _).advanceWrite a
  · exact (h.writeDirty _ _ _).advanceWrite a
  · exact h.setApply _

theorem Work.atomicUpdate (h : Work s t) (a : Apply) : Work s (atomicUpdate a t) := by
  unfold Machine.atomicUpdate
  split
  · exact h.finishCount a
  · exact .ite _ (((h.cacheUpdate _ _).setApply _).finishCount a) ((h.cacheUpdate _ _).setApply _)

theorem Work.atomicStep (h : Work s t) (a : Apply) : Work s (atomicStep a t) := by
  have htaken (k : Nat) : Work s (if a.step = 0 then Machine.takeSeq k t else t) := .ite _ (h.takeSeq k) h
  exact .ite _ (h.atomicUpdate a) (.ite _ ((htaken _).requestMedia _ _) ((htaken _).requestMedia _ _))

/-- The unmapping of a range keeps the map's canonical form. -/
theorem Work.unmapRange (h : Work s t) (start count : Nat) (e : MapEntry) : Work s (unmapRange start count e t) := by
  unfold Machine.unmapRange
  split
  · exact h.trans (.of_stores rfl fun ⟨hf, _, hg⟩ => ⟨hf, rfl, hg⟩)
  · exact .foldl (fun h _ => h.putEntry _ _) h _

theorem Work.trimStep (h : Work s t) (a : Apply) : Work s (trimStep a t) := by
  unfold Machine.trimStep
  split
  · exact ((h.invalidateAll _).modSlot _ _).nextStep a
  · exact (h.takeSeq 1).requestMedia _ _
  · exact (h.unmapRange _ _ _).finishApply _ _ _

theorem Work.discardStep (h : Work s t) (a : Apply) : Work s (discardStep a t) :=
  ((h.invalidateAll _).modSlot _ _).finishCount a

theorem Work.stepWork (h : Work s t) (a : Apply) (b : Bool) : Work s (stepWork a b t) := by
  unfold Machine.stepWork
  split
  · exact h.readStep a b
  · exact h.cachedStep a
  · exact (h.takeSeq 1).requestMedia a _
  · exact h.atomicStep a
  · exact h.trimStep a
  · exact h.trimStep a
  · exact h.prefetchStep a
  · exact h.discardStep a
  all_goals exact h

theorem Work.beginStep (h : Work s t) (a : Apply) (b : Bool) : Work s (beginStep a b t) :=
  .ite _ (h.setApply _) (h.stepWork a b)

theorem Work.applyStepOp (h : Work s t) (b : Bool) : Work s (applyStepOp b t) := by
  unfold Machine.applyStepOp
  split
  · exact .ite _ (h.beginStep _ b) h
  · exact h

/-! ### What is due -/

theorem Work.endWait (h : Work s t) : Work s (endWait t) := by
  unfold Machine.endWait
  split
  · exact h.stepWork _ _
  · exact h

theorem Work.perform (h : Work s t) (d : Due) (b : Bool) : Work s (perform d b t) := by
  cases d with
  | start n => exact (h.startSlot n b).endUnit
  | lineWaitEnd => exact h.endWait.endUnit
  | foregroundEnd => exact h.endWait.endUnit
  | dozeEntry => exact (h.same (u := enterDoze t) rfl).endUnit

theorem Work.settleDue (h : Work s t) (k : Nat) : Work s (settleDue k t) := by
  induction k generalizing t with
  | zero => exact h
  | succ k ih =>
    unfold Machine.settleDue
    split
    · exact ih (h.perform _ _)
    · exact h

theorem Work.caughtUp (h : Work s t) : Work s (caughtUp t) := h.settleDue 24

theorem Work.settleUntil (h : Work s t) (p : State → Due → Bool) (k : Nat) : Work s (settleUntil p k t) := by
  induction k generalizing t with
  | zero => exact h
  | succ k ih =>
    unfold Machine.settleUntil
    split
    · exact .ite _ h (ih (h.perform _ _))
    · exact h

theorem Work.dueRow (h : Work s t) (p : State → Due → Bool) (b : Bool) : Work s (dueRow p b t) := by
  unfold Machine.dueRow Machine.performIf
  split
  · exact .ite _ ((h.settleUntil p 24).perform _ b) (h.settleUntil p 24)
  · exact h.settleUntil p 24

end Sys2Proof.Machine
end

section
/-! `Work` for the media port, the engines, the mount and the tick; the completion of a ticket and the resets, which keep
the invariants but not the ticket. -/

namespace Sys2Proof.Machine

variable {s t : State}

/-- An optional next state is work. -/
theorem Work.getD (h : Work s t) {o : Option State} (ho : ∀ u ∈ o, Work s u) : Work s (o.getD t) := by
  cases o with
  | none => exact h
  | some u => exact ho u rfl

/-! ### Grants -/

theorem Work.grant (h : Work s t) (q : Requester) (op : MediaOp) : Work s (grant q op t) := h.same rfl

theorem Work.grantProgram (h : Work s t) (q : Requester) (g : Nat) (p : Prog) : Work s (grantProgram q g p t) :=
  h.grant q _

theorem Work.answerUnmapped (h : Work s t) (a : Apply) (f : Nat) : Work s (answerUnmapped a f t) :=
  .ite _ (h.advancePrefetch a) (h.readMiss a f)

theorem Work.grantApply (h : Work s t) : ∀ u ∈ grantApply t, Work s u := by
  unfold Machine.grantApply
  repeat' split
  all_goals simp only [Option.mem_def, Option.map_eq_some_iff, Option.some.injEq, reduceCtorEq, forall_eq', false_implies,
    implies_true, forall_exists_index, and_imp]
  · rintro u l - rfl
    exact h.grant _ _
  · exact (h.invalidate _).answerUnmapped _ _
  · rintro u l - rfl
    exact h.grant _ _
  · exact h.answerUnmapped _ _
  · rintro u g - rfl
    exact h.grantProgram _ _ _

theorem Work.grantTicket (h : Work s t) : ∀ u ∈ grantTicket t, Work s u := by
  unfold Machine.grantTicket
  split
  · simp only [Option.mem_def, Option.map_eq_some_iff, forall_exists_index, and_imp]
    rintro u g - rfl
    exact h.grantProgram _ _ _
  · simp

theorem Work.grantReclaim (h : Work s t) : ∀ u ∈ grantReclaim t, Work s u := by
  unfold Machine.grantReclaim
  dsimp only
  repeat' split
  all_goals simp only [Option.mem_def, Option.map_eq_some_iff, Option.some.injEq, reduceCtorEq, forall_eq', false_implies,
    implies_true, forall_exists_index, and_imp]
  · rintro u g - rfl
    exact h.grantProgram _ _ _
  · rintro u g - rfl
    exact h.same rfl
  · exact h.grant _ _
  · exact (h.putGroup _ _).grant _ _

theorem Work.grantRelocation (h : Work s t) : ∀ u ∈ grantRelocation t, Work s u := by
  unfold Machine.grantRelocation
  dsimp only
  repeat' split
  all_goals simp only [Option.mem_def, Option.map_eq_some_iff, Option.some.injEq, reduceCtorEq, forall_eq', false_implies,
    implies_true, forall_exists_index, and_imp]
  · rintro u g - rfl
    exact h.grantProgram _ _ _
  · exact h.same rfl
  · exact h.same rfl

theorem Work.grantFirst (h : Work s t) : Work s (grantFirst t) := by
  unfold Machine.grantFirst
  split
  · exact h.getD h.grantApply
  · refine h.getD fun u hu => ?_
    obtain ⟨o, ho, hou⟩ := List.exists_of_findSome?_eq_some hu
    have hou : u ∈ o := hou
    split at ho <;> simp only [List.mem_cons, List.not_mem_nil, or_false] at ho <;> rcases ho with rfl | rfl | rfl | rfl
    · exact h.grantReclaim u hou
    · exact h.grantApply u hou
    · exact h.grantTicket u hou
    · exact h.grantRelocation u hou
    · exact h.grantApply u hou
    · exact h.grantTicket u hou
    · exact h.grantReclaim u hou
    · exact h.grantRelocation u hou

theorem Work.portGrant (h : Work s t) : Work s (portGrant t) :=
  .ite _ (Work.grantFirst (.ite _ h h.reclaimProgress)) h

/-! ### Reads -/

theorem Work.noteCorrection (h : Work s t) (n : Fin 8) (k : Nat) : Work s (noteCorrection n k t) := .ite _ h (h.modSlot n _)

theorem Work.offerWorn (h : Work s t) (l : Loc) (k : Nat) : Work s (offerWorn l k t) := h.same (offerWorn_vitals l k t)

theorem Work.fillLine (h : Work s t) (l : Fin 32) (d : FolioData) : Work s (fillLine l d t) := (h.setLine l _).touch l

theorem Work.applyReadGood (h : Work s t) (a : Apply) (r : MediaReq) (k : Nat) (d : FolioData) :
    Work s (applyReadGood a r k d t) := by
  cases r with
  | fill l f =>
    exact .ite _ (((h.fillLine l d).modSlot _ _).advancePrefetch a)
      ((((h.fillLine l d).noteCorrection _ k).placeFolio _ d).advanceRead a)
  | direct f => exact ((h.noteCorrection _ k).placeFolio _ d).advanceRead a
  | prog p => exact h

theorem Work.applyReadBad (h : Work s t) (a : Apply) (r : MediaReq) : Work s (applyReadBad a r t) := by
  cases r with
  | fill l f => exact .ite _ ((h.invalidate l).advancePrefetch a) ((h.invalidate l).readUnreadable a f)
  | direct f => exact h.readUnreadable a f
  | prog p => exact h

theorem Work.applyRead (h : Work s t) (l : Loc) (r : ReadResult) : Work s (applyRead l r t) := by
  unfold Machine.applyRead
  split
  · exact h
  · split
    · exact .ite _ ((h.poisonTarget l).applyReadBad _ _) ((h.offerWorn l _).applyReadGood _ _ _ _)
    all_goals exact h

theorem Work.orphanRead (h : Work s t) (l : Loc) (r : ReadResult) : Work s (orphanRead l r t) :=
  .ite _ (h.poisonTarget l) (h.offerWorn l _)

theorem Work.reclaimRead (h : Work s t) (l : Loc) (r : ReadResult) : Work s (reclaimRead l r t) := by
  have hpoison : Work s (if r = .uncorrectable then Machine.poisonTarget l t else t) := .ite _ (h.poisonTarget l) h
  unfold Machine.reclaimRead
  dsimp only
  split
  · exact hpoison.same rfl
  · exact hpoison

theorem Work.relocationRead (h : Work s t) (l : Loc) (r : ReadResult) : Work s (relocationRead l r t) :=
  .ite _ (h.poisonTarget l) (h.same rfl)

theorem Work.readResult (h : Work s t) (q : Requester) (l : Loc) (r : ReadResult) : Work s (readResult q l r t) := by
  have hcount : Work s (countRead (t.resultAt l r) (Machine.clearPort t)) := h.clearPort.same (countRead_vitals _ _)
  cases q with
  | apply => exact hcount.applyRead l _
  | orphan => exact hcount.orphanRead l _
  | reclaim => exact hcount.reclaimRead l _
  | relocation => exact hcount.relocationRead l _
  | wbe => exact hcount
  | mount => exact hcount

theorem Work.readComplete (h : Work s t) (r : ReadResult) : Work s (readComplete r t) := by
  unfold Machine.readComplete
  repeat' split
  · exact h
  · exact h.readResult _ _ r
  all_goals exact h

/-! ### Programs -/

theorem Work.throughLanded (h : Work s t) (a : Apply) (l : Loc) (p : Prog) : Work s (throughLanded a l p t) :=
  ((Work.ite _ ((h.offerData _ _ l).cacheUpdate _ _) (h.offerData _ _ l)).modSlot _ _).advanceWrite a

theorem Work.atomicOffers (h : Work s t) (k : Nat) (b : Word) (ls : List (Nat × Loc)) (acc : List Nat) :
    Work s (atomicOffers k b ls (acc, t)).2 := by
  induction ls generalizing acc t with
  | nil => exact h
  | cons p ls ih => exact ih (h.offerData _ _ _) _

theorem Work.commitLanded (h : Work s t) (a : Apply) (l : Loc) (p : Prog) : Work s (commitLanded a l p t) := by
  have hoffers := h.atomicOffers (t.slot a.slot).desc.folio a.seq0 ((List.range a.pendingLocs.length).zip a.pendingLocs) []
  refine .ite _ (Work.finishCount ?_ _) ?_
  all_goals exact hoffers.same rfl

theorem Work.atomicLanded (h : Work s t) (a : Apply) (l : Loc) (p : Prog) : Work s (atomicLanded a l p t) :=
  .ite _ (h.nextStep _) (h.commitLanded a l p)

theorem Work.applyLanded (h : Work s t) (l : Loc) (p : Prog) : Work s (applyLanded l p t) := by
  unfold Machine.applyLanded
  repeat' split
  · exact h
  · exact h.throughLanded _ l p
  · exact h.atomicLanded _ l p
  · exact h.nextStep _
  · exact h.nextStep _
  all_goals exact h

theorem Work.programComplete (h : Work s t) : Work s (programComplete t) := by
  unfold Machine.programComplete
  repeat' split
  · exact (h.landProgram _ _).applyLanded _ _
  · exact h.tearProgram _ _
  all_goals exact h

theorem Work.programFailed (h : Work s t) : Work s (programFailed t) := by
  unfold Machine.programFailed
  repeat' split
  · exact h.programLost _ _ _ _
  all_goals exact h

theorem Work.holdRetry (h : Work s t) (q : Requester) : Work s (holdRetry q t) := by
  unfold Machine.holdRetry
  split
  · exact .ite _ (h.setApply _) h
  · exact h

/-! ### The Writeback Engine, reclaim and relocation -/

/-- A capture gives a ticket only where none is in flight (R90). -/
theorem Work.wbeCaptureOp (h : Work s t) (b : Bool) : Work s (wbeCaptureOp b t) := by
  unfold Machine.wbeCaptureOp
  split
  · next hmay =>
    split
    · exact h
    · next l _ _ =>
      refine .ite _ (h.dirtyLineError l) (h.trans ⟨⟨id, fun _ => id, id⟩, fun k hk => ?_⟩)
      simp [State.wbeMayCapture, hk] at hmay
  · exact h

/-- The completion of a ticket ends it (R93) and keeps the invariants. -/
theorem keeps_settleTicket (k : Ticket) (l : Loc) (s : State) : Keeps s (settleTicket k l s) := by
  have hoffer : Work s (offerData k.folio k.seq l s) := (Work.refl s).offerData _ _ _
  have hsettle : Work s (if (s.line k.line).voidTicket then s else
      settleOwnLine k (if s.offerAccepted k.folio k.seq then dropStale k (offerData k.folio k.seq l s)
        else offerData k.folio k.seq l s)) :=
    .ite _ (.refl s) ((Work.ite _ (hoffer.same (dropStale_vitals k _)) hoffer).same (settleOwnLine_vitals k _))
  exact hsettle.toKeeps.trans ⟨id, fun _ => id, id⟩

theorem keeps_ticketLanded (s : State) : Keeps s (ticketLanded s) := by
  unfold ticketLanded
  repeat' split
  · exact ((Work.refl s).landProgram _ _).toKeeps.trans (keeps_settleTicket _ _ _)
  all_goals exact (Work.refl s).toKeeps

theorem Work.chooseVictim (h : Work s t) : Work s (chooseVictim t) := by
  unfold Machine.chooseVictim
  repeat' split
  · refine Work.reclaimProgress ?_
    exact h.same rfl
  all_goals exact h

theorem Work.reclaimCopied (h : Work s t) : Work s (reclaimCopied t) := by
  unfold Machine.reclaimCopied
  repeat' split
  · refine Work.reclaimProgress ?_
    exact ((h.landProgram _ _).landCopy _ _).same rfl
  all_goals exact h

theorem Work.reclaimErased (h : Work s t) (b : Bool) : Work s (reclaimErased b t) := by
  unfold Machine.reclaimErased
  repeat' split
  · exact (h.clearPort.eraseGroup _).endVictim _
  · exact h.failErase _ _
  all_goals exact h

theorem Work.relocationCopied (h : Work s t) : Work s (relocationCopied t) := by
  unfold Machine.relocationCopied
  split
  · split
    · next l p _ =>
      refine .ite _ ?_ h
      exact (Work.ite _ ((h.landProgram l p).landCopy _ _) (h.landProgram l p)).same rfl
    all_goals exact h
  · exact h

/-! ### The mount -/

theorem Work.mountGroup (h : Work s t) (g : Nat) : Work s (mountGroup g t) :=
  .ite _ (.ite _ (h.same rfl) (h.same rfl)) (h.same rfl)

theorem Work.startMount (h : Work s t) : Work s (startMount t) := by
  refine Work.mountGroup ?_ 0
  exact h.same rfl

theorem Work.modMount (h : Work s t) (f : Mount → Mount) : Work s (modMount f t) := h.same rfl

theorem Work.classify (h : Work s t) (l : Loc) (c : ScanClass) : Work s (classify l c t) := h.modMount _

theorem Work.endGroup (h : Work s t) (g k : Nat) : Work s (endGroup g k t) :=
  (Work.ite _ (h.putGroup g _) ((h.putGroup g _).modMount _)).mountGroup _

theorem Work.nextPosition (h : Work s t) (l : Loc) : Work s (nextPosition l t) := .ite _ (h.same rfl) (h.endGroup _ _)

theorem Work.mountRead (h : Work s t) (b : Bool) : Work s (mountRead b t) := by
  unfold Machine.mountRead
  split
  · unfold scanPosition
    split
    · exact (h.clearPort.classify _ _).nextPosition _
    · exact h.clearPort.endGroup _ _
  all_goals exact h

theorem Work.reerased (h : Work s t) (g : Nat) (o : Option Origin) : Work s (reerased g o t) := by
  have hcount : Work s (Machine.modMount (fun m => { m with reerased := m.reerased + 1 }) (Machine.clearPort t)) :=
    h.clearPort.modMount _
  cases o with
  | none => exact (hcount.eraseGroup g).mountGroup _
  | some o => exact (hcount.retireGroup g o).mountGroup _

theorem Work.mountErased (h : Work s t) (b : Bool) : Work s (mountErased b t) := by
  unfold Machine.mountErased
  split
  · exact h.reerased _ _
  all_goals exact h

theorem Work.loseMetadata (h : Work s t) (l : Loc) : Work s (loseMetadata l t) :=
  h.trans (.of_stores (by rw [loseMetadata_frame]; rfl) fun ⟨hf, hm, hg⟩ =>
    ⟨loseMetadata_flash_wf l t hf, by rw [loseMetadata_frame]; exact hm, by rw [loseMetadata_frame]; exact hg⟩)

theorem offerAll_wf (all : List (Loc × Cell)) (l : Loc) (d : Metadata) {m : FolioMap} (h : m.wf = true) :
    (offerAll all l d m).wf = true := by
  rw [FolioMap.wf_iff] at h ⊢
  exact ⟨sparseWf_filter _ (sparseWf_map _ h.1), fun p hp => by simpa [offerAll] using (List.mem_filter.1 hp).2⟩

theorem foldl_wf {α : Type} {f : FolioMap → α → FolioMap} (hf : ∀ m a, m.wf = true → (f m a).wf = true) (l : List α)
    {m : FolioMap} (h : m.wf = true) : (l.foldl f m).wf = true := by
  induction l generalizing m with
  | nil => exact h
  | cons a l ih => exact ih (hf m a h)

theorem offerCandidate_wf (all : List (Loc × Cell)) (m : FolioMap) (p : Loc × Cell) (h : m.wf = true) :
    (offerCandidate all m p).wf = true := by
  unfold offerCandidate
  dsimp only
  split
  · exact offerAll_wf all _ _ h
  · exact foldl_wf (fun m i hm => FolioMap.put_wf m _ _ hm) _ h

theorem resolvedMap_wf (all : List (Loc × Cell)) : (resolvedMap all).wf = true :=
  foldl_wf (offerCandidate_wf all) all rfl

theorem Work.mountResolve (h : Work s t) (m : Mount) : Work s (mountResolve m t) := by
  have hlost : Work s (loseErrors m t) := .foldl (fun h p => h.loseMetadata _) h _
  have hfull := Work.foldl (f := fun s g => Machine.putGroup g { s.group g with state := .full, nextFree := Config.groupFolios } s)
    (fun h g => h.putGroup g _) hlost m.fullGroups
  exact hfull.trans (.of_stores rfl fun ⟨hf, _, hg⟩ => ⟨hf, resolvedMap_wf _, hg⟩)

theorem mountReserve_vitals (s : State) : (mountReserve s).vitals = s.vitals := by
  unfold mountReserve
  dsimp only
  repeat' split
  all_goals rfl

/-! ### Resets -/

theorem Work.writeClean (h : Work s t) (l : Fin 32) (f : Nat) (d : FolioData) : Work s (writeClean l f d t) :=
  h.same (writeClean_vitals l f d t)

theorem Work.completeFirst (h : Work s t) : Work s (completeFirst t) := by
  have hupdate {t : State} (h : Work s t) (a : Apply) (i : Nat) : Work s (resetUpdate a t i) := by
    unfold resetUpdate
    dsimp only
    split
    · exact h.writeClean _ _ _
    · exact h
  unfold Machine.completeFirst
  split
  · split
    · exact .ite _ (.foldl (fun h i => hupdate h _ i) h _) h
    · exact .ite _ (h.unmapRange _ _ _) h
    · exact .ite _ (h.unmapRange _ _ _) h
    all_goals exact h
  · exact h

/-- A captured word whose side effect is dropped claims nothing. -/
theorem captureSound_continued {p : Hpi} {n m : Ntc} {s : State}
    (h : ({ s with hpi := p, ntc := n } : State).captureSound = true) :
    ({ s with hpi := p.continued, ntc := m } : State).captureSound = true := by
  revert h
  simp only [State.captureSound, Hpi.continued]
  cases p.captured with
  | none => exact fun _ => rfl
  | some c =>
    simp only [Option.map_some, Bool.and_eq_true]
    exact fun h => ⟨h.1, rfl⟩

/-- A partial reset empties the stack and drops the captured word's side effect; configuration and stores it keeps (R177). -/
theorem Work.partialReset (h : Work s t) (k : ResetKind) (r : Option (FaultCode × FaultCode)) :
    Work s (partialReset k r t) := by
  refine h.completeFirst.trans ?_
  generalize hu : Machine.completeFirst t = u
  have hv : (Machine.partialReset k r t).vitals = { u.vitals with
      captured := u.hpi.continued.captured, unannounced := 0, level := 0, stack := [] } := by
    subst hu
    exact wakeCause_vitals _
  have hmid : Work u { u with hpi := u.hpi.continued, ntc := u.ntc.partialReset } :=
    ⟨⟨fun ⟨hpolicy, ⟨hlow, hhigh, _⟩, hlevels⟩ => ⟨hpolicy, ⟨hlow, hhigh, hlow⟩, hlevels⟩,
      fun _ ⟨_, _, _, hcap⟩ => ⟨Nat.zero_le _, by simp [Ntc.partialReset], by simp [Ntc.partialReset],
        captureSound_continued hcap⟩, id⟩, fun _ => id⟩
  exact hmid.same hv

theorem Work.raiseHard (h : Work s t) (f : FaultCode) : Work s (raiseHard f t) := by
  unfold Machine.raiseHard
  split
  · exact h.partialReset _ _
  · exact h.raiseFault f

theorem Work.raiseMap (h : Work s t) (l : Loc) : Work s (raiseMap l t) := by
  unfold Machine.raiseMap
  split
  · exact h.partialReset _ _
  · exact (h.raiseFault .f2).same rfl

theorem Work.mountFault (h : Work s t) (m : Mount) : Work s (mountFault m t) := by
  unfold Machine.mountFault
  split
  · have hspare {t : State} (h : Work s t) (p : Prop) [Decidable p] (e : Event) :
        Work s (if p then Machine.setEvent e t else t) := .ite _ (h.setEvent e) h
    exact (hspare (hspare (h.raiseMap _) _ _) _ _).setEvent _
  · exact h.setEvent _

theorem Work.evalReclaim (h : Work s t) : Work s (evalReclaim t) := h.same rfl

theorem Work.mountCounts (h : Work s t) (m : Mount) : Work s (mountCounts m t) := h.same rfl

theorem Work.mountFinish (h : Work s t) : Work s (mountFinish t) := by
  unfold Machine.mountFinish
  split
  · next m _ =>
    refine .ite _ ?_ h
    have hopen := (h.mountResolve m).takeReclaimOpen.takeHostOpen.same (mountReserve_vitals _)
    exact ((hopen.evalReclaim.mountCounts m).mountFault m).same rfl
  · exact h

theorem cutOff_stores {s : State} (op : Option PortOp) (h : s.StoresSound) : (cutOff op s).StoresSound := by
  unfold cutOff
  repeat' split
  · exact (((Work.refl s).putCell _ _ false).putGroup _ _).stores h
  all_goals exact h

theorem surviving_stores {s u : State} (hm : u.mm = s.mm.surviving) (h : s.StoresSound) : u.StoresSound := by
  obtain ⟨hflash, _, hgroups, _⟩ := h
  simp only [State.StoresSound, hm]
  exact ⟨hflash, rfl, sparseWf_filter _ (sparseWf_map _ hgroups), fun p hp => by
    simpa [Media.surviving] using (List.mem_filter.1 hp).2⟩

theorem cutOff_frame (op : Option PortOp) (s : State) : cutOff op s =
    { s with mm := { s.mm with flash := (cutOff op s).mm.flash, groups := (cutOff op s).mm.groups } } := by
  unfold cutOff
  repeat' split
  all_goals rfl

theorem fullReset_frame (k : ResetKind) (s : State) : fullReset k s =
    { hpi := if k = .port then s.hpi.continued else s.hpi.abandoned
      csq := .reset, dp := .reset, fc := .reset, rvt := .reset
      mm := { Media.blank with
        flash := (fullReset k s).mm.flash, groups := (fullReset k s).mm.groups, defects := s.mm.defects }
      mount := none, ntc := .reset, pwr := .reset
      rst := { resetnLow := s.rst.resetnLow, inReset := if k = .port then none else some k, portReset := k = .port
               nen := false, cause := k, collision := none }
      pending := s.pending } := cutOff_frame _ _

theorem keeps_fullReset (k : ResetKind) (s : State) : Keeps s (fullReset k s) := by
  have hfc : (fullReset k s).fc = Cache.reset := by rw [fullReset_frame]
  have hntc : (fullReset k s).ntc = Ntc.reset := by rw [fullReset_frame]
  refine ⟨fun _ => ?_, fun _ ⟨_, _, _, hcap⟩ => ⟨?_, ?_, ?_, ?_⟩, fun h => ?_⟩
  · simp only [State.ConfigSound, hfc, hntc]
    decide
  · simp [hntc, Ntc.reset]
  · simp [hntc, Ntc.reset]
  · simp [hntc, Ntc.reset]
  · rw [fullReset_frame]
    by_cases hk : k = .port
    · simp only [if_pos hk]
      exact captureSound_continued (s := { s with mm := _ }) hcap
    · simp only [if_neg hk]
      rfl
  · exact cutOff_stores _ (surviving_stores rfl h)

end Sys2Proof.Machine
end

section
/-! `Work` for the tick, the frames of the host port, the captured words and the written registers, and what every command
keeps: the three invariants, and a ticket in flight but for the completion of its program and a full reset. -/

namespace Sys2Proof.Machine

variable {s t : State}

/-! ### Time and power -/

theorem Work.abandon (h : Work s t) (op : PortOp) : Work s (abandon op t) := by
  unfold Machine.abandon
  split
  · exact (h.programLost _ _ _ _).holdRetry _
  · exact .ite _ (h.reerased _ _) (h.failErase _ _)
  · exact .ite _ ((h.clearPort.classify _ _).nextPosition _) (h.readResult _ _ _)

theorem Work.raiseStall (h : Work s t) : Work s (raiseStall t) := (h.modMount _).raiseHard .f3

theorem Work.stallOp (h : Work s t) (op : PortOp) : Work s (stallOp op t) :=
  .ite _ ((h.abandon op).raiseStall.same rfl) (h.abandon op).raiseStall

theorem Work.tickStall (h : Work s t) : Work s (tickStall t) := by
  unfold Machine.tickStall
  split
  · exact .ite _ (h.stallOp _) (h.same rfl)
  · exact h

theorem Work.tickPowerUp (h : Work s t) : Work s (tickPowerUp t) := by
  unfold Machine.tickPowerUp
  split
  · refine .ite _ (Work.raiseHard ?_ .f3) ?_
    all_goals exact h.same rfl
  · exact h

theorem Work.checkBuffer (h : Work s t) (b : BufId) (w : Option Nat) : Work s (checkBuffer b w t) := by
  unfold Machine.checkBuffer
  split
  · exact .ite _ (.ite _ (h.readBufferError _).settleSlots (h.writeBufferError _).settleSlots) h
  · exact h

theorem tickQuiet_vitals (s : State) : (tickQuiet s).vitals = s.vitals := by
  unfold tickQuiet
  split <;> rfl

theorem Work.announce (h : Work s t) : Work s (announce t) :=
  h.trans ⟨⟨fun ⟨hpolicy, ⟨hlow, hhigh, _⟩, hlevels⟩ => ⟨hpolicy, ⟨hlow, hhigh, hlow⟩, hlevels⟩, fun _ => id, id⟩,
    fun _ => id⟩

theorem Work.tickCoalesce (h : Work s t) : Work s (tickCoalesce t) := by
  unfold Machine.tickCoalesce
  split
  · exact .ite _ h.announce (h.same rfl)
  · exact h

theorem armIntent_vitals (s : State) : (armIntent s).vitals = s.vitals := by
  unfold armIntent
  split <;> rfl

theorem tickIdle_vitals (s : State) : (tickIdle s).vitals = s.vitals := by
  unfold tickIdle
  split
  · exact armIntent_vitals _
  · rfl

theorem Work.tickWhen (h : Work s t) (p : State → Bool) (w0 w1 : Option Nat) : Work s (tickWhen p w0 w1 t) :=
  .ite _ (((((h.tickStall.settleSlots.tickPowerUp.checkBuffer .tb0 w0).checkBuffer .tb1 w1).same
    (tickQuiet_vitals _)).tickCoalesce).same (tickIdle_vitals _)) h

theorem Work.enterSleep (h : Work s t) : Work s (enterSleep t) := h.same (enterSleep_vitals t)

theorem Work.sleepComplete (h : Work s t) : Work s (sleepComplete t) := by
  unfold Machine.sleepComplete
  split
  · exact .ite _ (.ite _ ((h.modSlot _ _).finishApply _ _ _) (h.finishApply _ _ _).enterSleep) h
  · exact h

theorem Work.mediaReadyOp (h : Work s t) : Work s (mediaReadyOp t) := .ite _ (h.same rfl) h

theorem Work.porEndOp (h : Work s t) : Work s (porEndOp t) := by
  refine .ite _ (Work.startMount ?_) h
  exact h.same rfl

theorem Work.pinReleaseOp (h : Work s t) : Work s (pinReleaseOp t) := by
  refine .ite _ (.ite _ (Work.startMount ?_) ?_) h
  all_goals exact h.same rfl

/-! ### Frames -/

/-- A change of the frame at which no captured word is left, or none was. -/
theorem Work.of_frame {p : Hpi} (h : s.ServiceSound → p.captured = none) : Work s { s with hpi := p } := by
  refine ⟨⟨id, fun _ hs => ?_, id⟩, fun _ => id⟩
  have hnone := h hs
  obtain ⟨hdepth, hle, hpair, -⟩ := hs
  exact ⟨hdepth, hle, hpair, by simp [State.captureSound, hnone]⟩

/-- A captured word stands only in a READ BURST frame past its type byte. -/
theorem captured_eq_none (h : s.hpi.frame ≠ some .readBurst ∨ s.hpi.phase = .typeByte) (hs : s.ServiceSound) :
    s.hpi.captured = none := by
  obtain ⟨-, -, -, hcap⟩ := hs
  by_contra hne
  obtain ⟨c, hc⟩ := Option.ne_none_iff_exists'.1 hne
  simp only [State.captureSound, hc, Bool.and_eq_true, beq_iff_eq, bne_iff_ne] at hcap
  exact h.elim (· hcap.1.1) hcap.1.2

theorem work_frameStartOp (s : State) : Work s (frameStartOp s) := .ite _ (.refl s) (.of_frame fun _ => rfl)

theorem work_frameEndOp (s : State) : Work s (frameEndOp s) := .ite _ (.of_frame fun _ => rfl) (.refl s)

theorem work_clockPast (s : State) : Work s (clockPast s) := .of_frame fun _ => rfl

theorem work_typeDecode (b : Byte) (a : WordAddr) (k : Byte) (s : State) : Work s (typeDecode b a k s) := by
  unfold typeDecode
  split
  · next hphase =>
    have hnone {u : State} (hu : u.hpi.phase = s.hpi.phase) : u.ServiceSound → u.hpi.captured = none :=
      captured_eq_none (.inr (hu.trans hphase))
    repeat' split
    · exact .of_frame (hnone rfl)
    · exact .of_frame (hnone rfl)
    · exact .of_frame (hnone rfl)
    · refine ((Work.refl s).reject .badFrame 0 b).trans (.of_frame (hnone ?_))
      rw [reject_frame]
  · exact .refl s

theorem work_pollWord (s : State) : Work s (pollWord s) := by
  unfold pollWord
  split
  · next hdue =>
    have hf : s.hpi.frame = some .statePoll := by
      simp only [Hpi.wordDue, Bool.and_eq_true, beq_iff_eq] at hdue
      exact hdue.1.1
    exact .of_frame (captured_eq_none (.inl (by simp [hf])))
  · exact .ite _ (work_clockPast s) (.refl s)

/-! ### Captured words -/

/-- The winner is a maskable source at its own level. -/
def Ntc.SourceLevel (n : Ntc) (w : Winner) : Prop := w.maskable = true ∧ ∃ i < 9, w.level = n.levelOf i

theorem sourceLevel_maskableWinner {n : Ntc} {w : Winner} (h : n.maskableWinner = some w) : n.SourceLevel w := by
  have hnone (w : Winner) (h : none = some w) : n.SourceLevel w := by cases h
  refine List.foldlRecOn (motive := fun o => ∀ w, o = some w → n.SourceLevel w) (List.range 9) _ hnone
    (fun best hbest i hi w hw => ?_) w h
  split_ifs at hw with heligible
  · cases hw
    exact ⟨rfl, i, List.mem_range.1 hi, rfl⟩
  · exact hbest w hw

/-- The level of a winner: 6 or lower for a maskable source, and 10 at most (R149, R150). -/
theorem level_of_winner {n : Ntc} (hlev : ∀ i < 9, n.levelOf i ≤ 6) {w : Winner} (h : n.winner = some w) :
    w.level ≤ 10 ∧ (w.maskable = true → w.level ≤ 6) := by
  unfold Ntc.winner at h
  repeat' split at h
  · cases h; decide
  · cases h; decide
  · cases h; decide
  · cases h; decide
  · obtain ⟨-, i, hi, hw⟩ := sourceLevel_maskableWinner h
    have hle := hlev i hi
    omega

theorem claimSound_captureClaim {s : State} (hlev : ∀ i < 9, s.ntc.levelOf i ≤ 6) :
    s.captureClaim.effect.claimSound s.ntc = true := by
  unfold State.captureClaim
  split
  · rfl
  · next w hw =>
    split
    · rfl
    · next hdepth =>
      unfold Ntc.claimable at hw
      split at hw
      · next w' hwin =>
        split at hw
        · next hlevel =>
          cases hw
          obtain ⟨hten, hmask⟩ := level_of_winner hlev hwin
          refine decide_eq_true ⟨not_le.1 hdepth, ?_⟩
          unfold Ntc.claimLevel
          split
          · next hm =>
            have hsix := hmask ((Bool.and_eq_true _ _).mp hm).2
            omega
          · exact ⟨hlevel, hten⟩
        · cases hw
      · cases hw

theorem claimSound_captureOf {s : State} (hlev : ∀ i < 9, s.ntc.levelOf i ≤ 6) (a : WordAddr) :
    (s.captureOf a).effect.claimSound s.ntc = true := by
  unfold State.captureOf
  split
  · rfl
  · split
    · exact claimSound_captureClaim hlev
    · unfold State.captureData
      repeat' split
      all_goals rfl
    · rfl

theorem work_captureWord (hf : s.hpi.frame = some .readBurst) : Work s (captureWord s) := by
  refine ⟨⟨id, fun hc ⟨hdepth, hle, hpair, _⟩ => ⟨hdepth, hle, hpair, ?_⟩, id⟩, fun _ => id⟩
  have hclaim (c : Capture) (h : c.effect.claimSound s.ntc = true) (v : Sdo) :
      ({ s with hpi := { s.hpi.advance with
          captured := some { addr := s.hpi.nextAddr, value := c.value, effect := c.effect }, sdo := v } } : State).captureSound
        = true := by
    simp [State.captureSound, Hpi.advance, hf, h]
  refine hclaim _ ?_ _
  split
  · rfl
  · exact claimSound_captureOf hc.2.2 _

theorem takeSnapshot_vitals (s : State) : (takeSnapshot s).vitals = s.vitals := by
  unfold takeSnapshot
  split <;> rfl

theorem dropConsumption_hpi_frame (s : State) : (dropConsumption s).hpi.frame = s.hpi.frame := by
  unfold dropConsumption
  repeat' split
  all_goals rfl

theorem completeSlot_hpi (n : Fin 8) (st : Status) (k : Nat) (s : State) : (completeSlot n st k s).hpi = s.hpi := by
  rw [completeSlot_frame]

theorem readBufferError_hpi_frame (n : Fin 8) (s : State) : (readBufferError n s).hpi.frame = s.hpi.frame := by
  unfold readBufferError
  rw [completeSlot_hpi]
  split
  · rw [dropConsumption_hpi_frame, raiseFault_frame]
  · rw [raiseFault_frame]

theorem work_captureOp (b : Bool) (s : State) : Work s (captureOp b s) := by
  unfold captureOp
  split
  · exact .refl s
  · split
    · next hdue =>
      have hf : s.hpi.frame = some .readBurst := by
        simp only [Hpi.wordDue, Bool.and_eq_true, beq_iff_eq] at hdue
        exact hdue.1.1
      split
      · next n _ => exact ((Work.refl s).readBufferError n).trans (work_captureWord ((readBufferError_hpi_frame n s).trans hf))
      · have hsnap : (takeSnapshot s).hpi.frame = some .readBurst := by
          rw [← hf]
          exact congrArg Vitals.frame (takeSnapshot_vitals s)
        exact (Work.of_vitals (takeSnapshot_vitals s)).trans (work_captureWord hsnap)
    · exact .ite _ (work_clockPast s) (.refl s)

theorem bumpConsumed_vitals (n : Fin 8) (s : State) : (bumpConsumed n s).vitals = s.vitals := by
  unfold bumpConsumed
  split
  · exact setBuf_vitals _ _ s
  · rfl

theorem Work.consumeData (h : Work s t) : Work s (consumeData t) := by
  unfold Machine.consumeData
  split
  · next n _ =>
    have hbump := h.same (bumpConsumed_vitals n t)
    exact .ite _ (.ite _ (hbump.completeSlot _ _ _) hbump) h
  · exact h

/-- A claim that can still be made keeps the service stack sound (R153). -/
theorem pushClaim_service {v : Nat} (hclaim : (ReadEffect.pushClaim v).claimSound s.ntc = true) (hs : s.ServiceSound) :
    (pushClaim v (wordDone s)).ServiceSound := by
  obtain ⟨-, hle, hpair, -⟩ := hs
  obtain ⟨hdepth, hlevel, hten⟩ := of_decide_eq_true hclaim
  refine ⟨hdepth, List.forall_mem_cons.2 ⟨hten, hle⟩, List.pairwise_cons.2 ⟨fun l hl hv => ?_, hpair⟩, rfl⟩
  rcases List.mem_cons.1 hl with rfl | hl
  · exact Nat.le_of_lt (Nat.lt_of_lt_of_le hlevel hv)
  · exact (List.pairwise_cons.1 hpair).1 l hl (Nat.le_of_lt (Nat.lt_of_lt_of_le hlevel hv))

theorem work_completeWord (p : WordAddr → Bool) (s : State) : Work s (completeWord p s) := by
  unfold completeWord
  split
  · next c hc =>
    refine .ite _ (Work.endUnit ?_) (.refl s)
    have hdone : Work s (wordDone s) := .of_frame fun _ => rfl
    cases he : c.effect with
    | nothing => exact hdone
    | dropped => exact hdone
    | consumeWord => exact hdone.consumeData
    | strayReject k => exact hdone.reject _ _ _
    | raiseF1 => exact hdone.same rfl
    | pushClaim v =>
      refine ⟨⟨id, fun _ hs => pushClaim_service ?_ hs, id⟩, fun _ => id⟩
      obtain ⟨-, -, -, hcap⟩ := hs
      simp only [State.captureSound, hc, he, Bool.and_eq_true] at hcap
      exact hcap.2
  · exact .refl s

end Sys2Proof.Machine
end

section
/-! The written registers, and what every command keeps. -/

namespace Sys2Proof.Machine

variable {s t : State}

/-! ### Written registers -/

theorem Work.badValue (h : Work s t) (a : Byte) : Work s (badValue a t) := h.reject _ _ _

theorem wakeAction_vitals (s : State) : (wakeAction s).vitals = s.vitals := by
  unfold wakeAction
  split
  · exact wakeCause_vitals s
  · exact wakeCause_vitals s
  all_goals rfl

theorem submitPower_vitals (s : State) : (submitPower s).vitals = s.vitals := wakeCause_vitals _

theorem work_submitWrite (w : Word) (s : State) : Work s (submitWrite w s) := by
  unfold submitWrite
  split
  · exact (Work.refl s).badValue _
  · split
    · exact (Work.refl s).reject _ _ _
    · exact (Work.of_vitals (t := s) rfl).same (submitPower_vitals _)

theorem work_abortWrite (w : Word) (s : State) : Work s (abortWrite w s) := by
  have h := Work.refl s
  unfold abortWrite
  split
  · exact h.badValue _
  · split
    · unfold abortSlot
      split
      · exact h
      · exact h.completeSlot _ _ _
      · exact h.completeSlot _ _ _
      · exact h.completeSlot _ _ _
      · exact h.modSlot _ _
      · refine Work.completeSlot ?_ _ _ _
        exact h.same rfl
      · exact h.completeSlot _ _ _
      · exact h
    · exact h.reject _ _ _

theorem work_retireWrite (w : Word) (s : State) : Work s (retireWrite w s) := by
  refine .ite _ ((Work.refl s).badValue _) ?_
  unfold retireHead
  split
  · exact .refl s
  · exact .of_vitals rfl

theorem appendWord_vitals (n : Fin 8) (w : Word) (s : State) : (appendWord n w s).vitals = s.vitals := by
  unfold appendWord
  split
  · exact setBuf_vitals _ _ s
  · rfl

theorem work_dataWrite (w : Word) (s : State) : Work s (dataWrite w s) := by
  unfold dataWrite
  split
  · exact (Work.refl s).reject _ _ _
  · next n _ =>
    have happend : Work s (appendWord n w s) := .of_vitals (appendWord_vitals n w s)
    refine .ite _ (.ite _ ?_ happend) ((Work.refl s).reject _ _ _)
    exact happend.same rfl

/-- Every field of a legal EV_LEVEL word is a level of 6 or lower (R149). -/
theorem work_evLevelWrite (w : Word) (s : State) : Work s (evLevelWrite w s) := by
  unfold evLevelWrite
  split
  · next hlegal =>
    refine ⟨⟨fun ⟨hpolicy, hcount, _⟩ => ⟨hpolicy, hcount, fun i hi => ?_⟩, fun _ => id, id⟩, fun _ => id⟩
    simp only [legalEvLevel, Bool.and_eq_true, List.all_eq_true, List.mem_range, decide_eq_true_eq] at hlegal
    have hfield : (w.extractLsb' 0 27).extractLsb' (3 * i) 3 = w.extractLsb' (3 * i) 3 := by
      ext j hj
      simp only [BitVec.getElem_extractLsb', BitVec.getLsbD_extractLsb', Nat.zero_add, Bool.and_eq_right_iff_imp,
        decide_eq_true_eq]
      omega
    simpa only [Ntc.levelOf, hfield, field] using hlegal.2 i hi
  · exact (Work.refl s).badValue _

theorem work_coalesceOp (w : Word) (s : State) : Work s (coalesceOp w s) := by
  unfold coalesceOp
  split
  · next hlegal =>
    obtain ⟨-, hlow, hhigh⟩ := by simpa only [legalCoalesce, Bool.and_eq_true, decide_eq_true_eq] using hlegal
    dsimp only
    split
    · exact ⟨⟨fun ⟨hpolicy, _, hlevels⟩ => ⟨hpolicy, ⟨hlow, hhigh, hlow⟩, hlevels⟩, fun _ => id, id⟩, fun _ => id⟩
    · next hun =>
      exact ⟨⟨fun ⟨hpolicy, _, hlevels⟩ => ⟨hpolicy, ⟨hlow, hhigh, not_le.1 hun⟩, hlevels⟩, fun _ => id, id⟩, fun _ => id⟩
  · exact (Work.refl s).badValue _

theorem work_cachePolicyOp (w : Word) (s : State) : Work s (cachePolicyOp w s) := by
  unfold cachePolicyOp
  split
  · next hlegal =>
    obtain ⟨-, hpolicy⟩ := by simpa only [legalCachePolicy, Bool.and_eq_true, decide_eq_true_eq] using hlegal
    exact ⟨⟨fun ⟨_, hcount, hlevels⟩ => ⟨hpolicy, hcount, hlevels⟩, fun _ => id, id⟩, fun _ => id⟩
  · exact (Work.refl s).badValue _

/-- END and SERVICE change the service stack; they are written in a WRITE BURST, in which no captured word stands. -/
theorem work_endOp (hcap : s.ServiceSound → s.hpi.captured = none) (w : Word) : Work s (endOp w s) := by
  unfold endOp
  split
  · exact (Work.refl s).badValue _
  · split
    · exact .of_vitals rfl
    · next l rest hstack =>
      refine ⟨⟨id, fun _ hs => ?_, id⟩, fun _ => id⟩
      have hnone := hcap hs
      obtain ⟨hdepth, hle, hpair, -⟩ := hs
      rw [hstack] at hdepth hle hpair
      exact ⟨Nat.le_of_succ_le hdepth, (List.forall_mem_cons.1 hle).2, (List.pairwise_cons.1 hpair).2,
        by simp [State.captureSound, hnone]⟩

theorem work_serviceOp (hcap : s.ServiceSound → s.hpi.captured = none) (w : Word) : Work s (serviceOp w s) := by
  unfold serviceOp
  split
  · next hlegal =>
    refine ⟨⟨id, fun _ hs => ?_, id⟩, fun _ => id⟩
    have hnone := hcap hs
    obtain ⟨hdepth, hle, hpair, -⟩ := hs
    obtain ⟨-, hlevel, hsix⟩ := by simpa only [State.serviceLegal, Bool.and_eq_true, decide_eq_true_eq] using hlegal
    obtain ⟨hbelow, hrest⟩ := List.pairwise_cons.1 hpair
    exact ⟨hdepth, List.forall_mem_cons.2 ⟨Nat.le_trans hsix (by decide), (List.forall_mem_cons.1 hle).2⟩,
      List.pairwise_cons.2 ⟨fun l hl _ => hbelow l hl hlevel, hrest⟩, by simp [State.captureSound, hnone]⟩
  · exact (Work.refl s).badValue _

theorem work_dozeDelayOp (w : Word) (s : State) : Work s (dozeDelayOp w s) := by
  unfold dozeDelayOp
  split
  · exact (Work.refl s).badValue _
  · dsimp only
    split
    · exact .of_vitals rfl
    · exact .of_vitals (armIntent_vitals _)

theorem work_hostControlOp (w : Word) (s : State) : Work s (hostControlOp w s) := by
  have hnen : Work s { s with rst := { s.rst with nen := w.getLsbD 0 } } := .of_vitals rfl
  exact .ite _ ((Work.refl s).badValue _)
    (.ite _ (hnen.partialReset _ _) (.ite _ (hnen.same (wakeAction_vitals _)) hnen))

theorem keeps_portConfigOp (w : Word) (s : State) : Keeps s (portConfigOp w s) := by
  unfold portConfigOp
  repeat' split
  · exact ((Work.refl s).badValue _).toKeeps
  · exact (Work.refl s).toKeeps
  · exact keeps_fullReset _ s
  · refine (Work.startMount ?_).toKeeps
    exact .of_vitals rfl
  · exact (Work.refl s).toKeeps

/-- What a written register's own rule does, but for PORT_CONFIG. -/
theorem work_writeReg (hcap : s.ServiceSound → s.hpi.captured = none) {r : Reg} (hr : r ≠ .portConfig) (w : Word) :
    Work s (writeReg r w s) := by
  have h := Work.refl s
  have hntc {n : Ntc} (a : Byte) (p : Prop) [Decidable p] (hn : ({ s with ntc := n } : State).vitals = s.vitals) :
      Work s (if p then { s with ntc := n } else badValue a s) := .ite _ (.of_vitals hn) (h.badValue a)
  cases r with
  | portConfig => exact absurd rfl hr
  | hostControl => exact work_hostControlOp w s
  | rejectLog => exact .ite _ (h.badValue _) (.ite _ (.of_vitals rfl) h)
  | cd n => exact .ite _ (h.badValue _) (.of_vitals rfl)
  | submit => exact work_submitWrite w s
  | abort => exact work_abortWrite w s
  | retire => exact work_retireWrite w s
  | dataPort => exact work_dataWrite w s
  | evPending => exact hntc _ _ rfl
  | evEnable => exact hntc _ _ rfl
  | evLevel => exact work_evLevelWrite w s
  | faultPending => exact hntc _ _ rfl
  | endReg => exact work_endOp hcap w
  | service => exact work_serviceOp hcap w
  | ntcConfig => exact hntc _ _ rfl
  | quiet => exact .ite _ (h.badValue _) (.ite _ (.of_vitals rfl) h)
  | coalesce => exact work_coalesceOp w s
  | cachePolicy => exact work_cachePolicyOp w s
  | dozeDelay => exact work_dozeDelayOp w s
  | deviceId | deviceState | resetCause | slotState | runOrder | ch _ | cqStatus | dataOwner | claim | cacheStatus | rsvView _
  | mediaStatus | rsvLost => exact h

/-- While the port completes a write word, no captured word stands: the frame is a WRITE BURST. -/
theorem captured_counted {a : WordAddr} (h : s.hpi.acceptsWrite a = true) :
    s.ServiceSound → s.hpi.captured = none := by
  simp only [Hpi.acceptsWrite, Hpi.wordDue, Bool.and_eq_true, beq_iff_eq] at h
  exact captured_eq_none (.inl (by simp [h.1.1.1]))

theorem work_counted {a : WordAddr} (h : s.hpi.acceptsWrite a = true) : Work s s.counted := .of_frame (captured_counted h)

/-- A write word whose act is work where no captured word stands. -/
theorem Work.writeAt (h : Work s t) {f : State → State} {a : WordAddr}
    (hf : ∀ u, (u.ServiceSound → u.hpi.captured = none) → Work u (f u)) : Work s (writeAt a f t) := by
  refine h.trans ?_
  unfold Machine.writeAt
  split
  · next hacc =>
    have hframe : t.counted.hpi.frame ≠ some .readBurst := by
      simp only [Hpi.acceptsWrite, Hpi.wordDue, Bool.and_eq_true, beq_iff_eq] at hacc
      simp [State.counted, Hpi.advance, hacc.1.1.1]
    exact ((work_counted hacc).trans (.ite _ (.refl _) (hf _ (captured_eq_none (.inl hframe))))).endUnit
  · exact .refl t

theorem keeps_writeAt {f : State → State} {a : WordAddr} (hf : ∀ u, Keeps u (f u)) (s : State) :
    Keeps s (writeAt a f (caughtUp s)) := by
  refine (Work.refl s).caughtUp.toKeeps.trans ?_
  unfold writeAt
  split
  · next hacc =>
    have hact : Keeps (caughtUp s).counted
        (if (caughtUp s).counted.held && a != 0x02 then (caughtUp s).counted else f (caughtUp s).counted) := by
      split
      · exact (Work.refl _).toKeeps
      · exact hf _
    exact ((work_counted hacc).toKeeps.trans hact).trans (Work.refl _).endUnit.toKeeps
  · exact (Work.refl _).toKeeps

/-! ### Every command -/

theorem regOf_eq_portConfig {a : WordAddr} (h : regOf a = some .portConfig) : a = 0x02 := by
  have hwf : sparseWf regTable = true := by decide
  unfold regOf at h
  split at h
  · cases h
  · rw [sparseGet_eq_some hwf] at h
    simp only [regTable, List.mem_cons, Prod.mk.injEq, reduceCtorEq, and_false, List.not_mem_nil, or_false, false_or,
      and_true] at h
    exact BitVec.eq_of_toNat_eq h

/-- The commands that can end a ticket in flight: the completion of its program and the causes of a full reset. -/
def Instr.mayEndTicket : Instr → Prop
  | .ticketComplete => True
  | .por => True
  | .pinReset => True
  | .portReset _ => True
  | .portResetRelease _ => True
  | .registerWrite a _ => a = 0x02
  | _ => False

/-- Every command but those that may end a ticket is work. -/
theorem exec_work {c : Instr} (hc : ¬Instr.mayEndTicket c) (s : State) : ∃ t, exec c s = .next t ∧ Work s t := by
  have h : Work s (caughtUp s) := (Work.refl s).caughtUp
  have hwrite {r : Reg} (hr : r ≠ .portConfig) (a : WordAddr) (w : Word) : Work s (writeAt a (writeReg r w) (caughtUp s)) :=
    h.writeAt fun _ hcap => work_writeReg hcap hr w
  cases c with
  | ticketComplete | por | pinReset | portReset _ | portResetRelease _ => exact absurd trivial hc
  | registerWrite a w =>
    refine ⟨_, rfl, h.writeAt fun u hcap => ?_⟩
    unfold writeAddr
    split
    · next r hr => exact work_writeReg hcap (fun he => hc (regOf_eq_portConfig (he ▸ hr))) w
    · exact .refl u
  | dataPortWrite a w => exact ⟨_, rfl, .ite _ (hwrite (r := .dataPort) nofun a w) h⟩
  | rejectLogClear w => exact ⟨_, rfl, hwrite (r := .rejectLog) nofun _ w⟩
  | cdWrite n w => exact ⟨_, rfl, hwrite (r := .cd n) nofun _ w⟩
  | submit w => exact ⟨_, rfl, hwrite (r := .submit) nofun _ w⟩
  | abort w => exact ⟨_, rfl, hwrite (r := .abort) nofun _ w⟩
  | retire w => exact ⟨_, rfl, hwrite (r := .retire) nofun _ w⟩
  | wake w | nenWrite w | controllerReset w => exact ⟨_, rfl, hwrite (r := .hostControl) nofun _ w⟩
  | evPendingClear w => exact ⟨_, rfl, hwrite (r := .evPending) nofun _ w⟩
  | faultPendingClear w => exact ⟨_, rfl, hwrite (r := .faultPending) nofun _ w⟩
  | endWrite w => exact ⟨_, rfl, hwrite (r := .endReg) nofun _ w⟩
  | serviceWrite w => exact ⟨_, rfl, hwrite (r := .service) nofun _ w⟩
  | quietWrite w => exact ⟨_, rfl, hwrite (r := .quiet) nofun _ w⟩
  | coalesceWrite w => exact ⟨_, rfl, hwrite (r := .coalesce) nofun _ w⟩
  | cachePolicyWrite w => exact ⟨_, rfl, hwrite (r := .cachePolicy) nofun _ w⟩
  | dozeDelayWrite w => exact ⟨_, rfl, hwrite (r := .dozeDelay) nofun _ w⟩
  | frameStart => exact ⟨_, rfl, h.trans (work_frameStartOp _)⟩
  | frameEnd => exact ⟨_, rfl, h.trans (work_frameEndOp _)⟩
  | frameTypeDecode b a k => exact ⟨_, rfl, (h.trans (work_typeDecode b a k _)).endUnit⟩
  | statePoll => exact ⟨_, rfl, h.trans (work_pollWord _)⟩
  | readWordCapture b => exact ⟨_, rfl, (h.trans (work_captureOp b _)).endUnit⟩
  | dataPortRead => exact ⟨_, rfl, h.trans (work_completeWord _ _)⟩
  | claim => exact ⟨_, rfl, h.trans (work_completeWord _ _)⟩
  | applyStep b => exact ⟨_, rfl, (h.applyStepOp b).endUnit⟩
  | mediaPortGrant => exact ⟨_, rfl, h.portGrant.endUnit⟩
  | mediaReadComplete r => exact ⟨_, rfl, (h.readComplete r).endUnit⟩
  | mediaProgramComplete => exact ⟨_, rfl, h.programComplete.endUnit⟩
  | programFail => exact ⟨_, rfl, h.programFailed.endUnit⟩
  | wbeCapture b => exact ⟨_, rfl, (h.wbeCaptureOp b).endUnit⟩
  | sleepCompletion => exact ⟨_, rfl, h.sleepComplete.endUnit⟩
  | mediaReady => exact ⟨_, rfl, h.mediaReadyOp.endUnit⟩
  | porEnd => exact ⟨_, rfl, h.porEndOp.endUnit⟩
  | pinResetRelease => exact ⟨_, rfl, h.pinReleaseOp.endUnit⟩
  | mountMetadataReadComplete b => exact ⟨_, rfl, (h.mountRead b).endUnit⟩
  | mountReeraseComplete b => exact ⟨_, rfl, (h.mountErased b).endUnit⟩
  | mountEnd => exact ⟨_, rfl, h.mountFinish.endUnit⟩
  | reclaimVictimChoice => exact ⟨_, rfl, h.chooseVictim.endUnit⟩
  | reclaimCopyComplete => exact ⟨_, rfl, h.reclaimCopied.endUnit⟩
  | reclaimEraseComplete b => exact ⟨_, rfl, (h.reclaimErased b).endUnit⟩
  | relocationCopyComplete => exact ⟨_, rfl, h.relocationCopied.endUnit⟩
  | tick w0 w1 | stallLimit w0 w1 | powerupStall w0 w1 | quietEnd w0 w1 | coalesceTimeout w0 w1 | dozeIntentArm w0 w1 =>
    exact ⟨_, rfl, (h.tickWhen _ w0 w1).endUnit⟩
  | read | writeCached _ | writeThrough _ | writeAtomic _ | trim | prefetch | discard | clean | flush | purge | sync
  | describe | healthCounters | healthDefectList | sleep | eraseAll | lineWaitEnd | reclaimForegroundEnd | dozeEntry =>
    exact ⟨_, rfl, (Work.refl s).dueRow _ _⟩

/-- Every command keeps the three invariants. -/
theorem exec_keeps (c : Instr) (s : State) : ∃ t, exec c s = .next t ∧ Keeps s t := by
  by_cases hc : Instr.mayEndTicket c
  · have hunit {f : State → State} (hf : ∀ u, Keeps u (f u)) : Keeps s (endUnit (f (caughtUp s))) :=
      ((Work.refl s).caughtUp.toKeeps.trans (hf _)).trans (Work.refl _).endUnit.toKeeps
    unfold Instr.mayEndTicket at hc
    split at hc
    · exact ⟨_, rfl, hunit keeps_ticketLanded⟩
    · exact ⟨_, rfl, hunit (keeps_fullReset .por)⟩
    · refine ⟨_, rfl, hunit fun u => ?_⟩
      unfold pinResetOp
      split
      · exact (Work.refl u).toKeeps
      · have hpin : Work u { u with rst := { u.rst with resetnLow := true } } := .of_vitals rfl
        exact hpin.toKeeps.trans (keeps_fullReset .pin _)
    · exact ⟨_, rfl, keeps_writeAt (keeps_portConfigOp _) s⟩
    · exact ⟨_, rfl, keeps_writeAt (keeps_portConfigOp _) s⟩
    · subst hc
      exact ⟨_, rfl, keeps_writeAt (keeps_portConfigOp _) s⟩
    · exact hc.elim
  · obtain ⟨t, ht, hwork⟩ := exec_work hc s
    exact ⟨t, ht, hwork.toKeeps⟩

/-- One step keeps the three invariants; an empty queue idles (log 15). -/
theorem step_keeps (h : step s = .next t) : Keeps s t := by
  unfold step at h
  split at h
  · cases h
    exact (Work.refl s).toKeeps
  · next c rest _ =>
    obtain ⟨u, hu, hkeeps⟩ := exec_keeps c { s with pending := rest }
    cases hu.symm.trans h
    have htaken : Work s { s with pending := rest } := .of_vitals rfl
    exact htaken.toKeeps.trans hkeeps

/-- Settles O8: every command keeps `ConfigSound` (`exec_keeps`); the registers' own writes by the legality of the word. -/
theorem stepKeepsConfigLegal : Obligations.StepKeepsConfigLegal := fun _ _ hs h => (step_keeps h).config hs

/-- Settles O9: every command keeps `ServiceSound`; a claim is captured only where it can be pushed, and END and SERVICE are
written only where no captured word stands. -/
theorem stepKeepsServiceStack : Obligations.StepKeepsServiceStack := fun _ _ hc hs h => (step_keeps h).service hc hs

/-- Settles O10: every command keeps `StoresSound`, since each of its updates of flash, map and groups does. -/
theorem stepKeepsStoresCanonical : Obligations.StepKeepsStoresCanonical := fun _ _ hs h => (step_keeps h).stores hs

/-- Settles O13: a command that can neither complete the ticket's program nor make a full reset is `Work`, which keeps it. -/
theorem ticketIsNeverCancelled : Obligations.TicketIsNeverCancelled := by
  intro c s t k h hk hticket hpor hpin hreset hrelease hwrite
  have hc : ¬Instr.mayEndTicket c := by
    unfold Instr.mayEndTicket
    split
    · exact absurd rfl hticket
    · exact absurd rfl hpor
    · exact absurd rfl hpin
    · exact absurd rfl (hreset _)
    · exact absurd rfl (hrelease _)
    · rintro rfl
      exact hwrite _ rfl
    · exact id
  obtain ⟨u, hu, hwork⟩ := exec_work hc s
  cases hu.symm.trans h
  exact hwork.ticket k hk

end Sys2Proof.Machine
end

section
/-! The data port stands wherever slots and buffers are not concerned, one lemma per operation, as for the CSQ. -/

namespace Sys2Proof.Machine

@[simp] theorem reject_dp (r : RejectReason) (a b : Byte) (s : State) : (reject r a b s).dp = s.dp := by rw [reject_frame]

@[simp] theorem badValue_dp (a : Byte) (s : State) : (badValue a s).dp = s.dp := reject_dp _ _ _ _

@[simp] theorem breakWhere_dp (p : Rsv → Bool) (c : BreakCause) (s : State) : (breakWhere p c s).dp = s.dp := by
  rw [breakWhere_frame]

@[simp] theorem breakAll_dp (c : BreakCause) (s : State) : (breakAll c s).dp = s.dp := breakWhere_dp _ _ _

@[simp] theorem createRsv_dp (r : Rsv) (s : State) : (createRsv r s).dp = s.dp := by rw [createRsv_frame]

@[simp] theorem writeRsvActions_dp (d : Desc) (s : State) : (writeRsvActions d s).dp = s.dp := by
  unfold writeRsvActions
  dsimp only
  split <;> simp

@[simp] theorem raiseFault_dp (f : FaultCode) (s : State) : (raiseFault f s).dp = s.dp := by rw [raiseFault_frame]

@[simp] theorem poisonFolio_dp (f : Nat) (s : State) : (poisonFolio f s).dp = s.dp := by rw [poisonFolio_frame]

@[simp] theorem poisonTarget_dp (l : Loc) (s : State) : (poisonTarget l s).dp = s.dp := by rw [poisonTarget_frame]

@[simp] theorem clearPoison_dp (f : Nat) (s : State) : (clearPoison f s).dp = s.dp := by rw [clearPoison_frame]

@[simp] theorem offerData_dp (f : Nat) (q : Word) (l : Loc) (s : State) : (offerData f q l s).dp = s.dp := by
  rw [offerData_frame]

@[simp] theorem landProgram_dp (l : Loc) (p : Prog) (s : State) : (landProgram l p s).dp = s.dp := by rw [landProgram_frame]

@[simp] theorem tearProgram_dp (l : Loc) (p : Prog) (s : State) : (tearProgram l p s).dp = s.dp := by rw [tearProgram_frame]

@[simp] theorem failProgram_dp (o : Origin) (l : Loc) (p : Prog) (s : State) : (failProgram o l p s).dp = s.dp := by
  rw [failProgram_frame]

@[simp] theorem programLost_dp (o : Origin) (q : Requester) (l : Loc) (p : Prog) (s : State) :
    (programLost o q l p s).dp = s.dp := by
  unfold programLost
  split <;> simp

@[simp] theorem reserveFell_dp (s : State) : (reserveFell s).dp = s.dp := by rw [reserveFell_frame]

@[simp] theorem retireGroup_dp (g : Nat) (o : Origin) (s : State) : (retireGroup g o s).dp = s.dp := by
  rw [retireGroup_frame]

@[simp] theorem failErase_dp (g : Nat) (o : Origin) (s : State) : (failErase g o s).dp = s.dp := by simp [failErase]

@[simp] theorem countRead_dp (r : ReadResult) (s : State) : (countRead r s).dp = s.dp := by cases r <;> rfl

@[simp] theorem offerWorn_dp (l : Loc) (n : Nat) (s : State) : (offerWorn l n s).dp = s.dp := by
  unfold offerWorn offerRelocation
  repeat' split
  all_goals rfl

@[simp] theorem orphanRead_dp (l : Loc) (r : ReadResult) (s : State) : (orphanRead l r s).dp = s.dp := by
  unfold orphanRead
  split <;> simp

@[simp] theorem reclaimRead_dp (l : Loc) (r : ReadResult) (s : State) : (reclaimRead l r s).dp = s.dp := by
  unfold reclaimRead
  dsimp only
  repeat' split
  all_goals simp

@[simp] theorem relocationRead_dp (l : Loc) (r : ReadResult) (s : State) : (relocationRead l r s).dp = s.dp := by
  unfold relocationRead
  split <;> simp

@[simp] theorem reclaimProgress_dp (s : State) : (reclaimProgress s).dp = s.dp := by
  unfold reclaimProgress
  dsimp only
  repeat' split
  all_goals simp

@[simp] theorem evalMedia_dp (s : State) : (evalMedia s).dp = s.dp := by rw [evalMedia_frame]

@[simp] theorem cutOff_dp (op : Option PortOp) (s : State) : (cutOff op s).dp = s.dp := by rw [cutOff_frame]

@[simp] theorem mountGroup_dp (g : Nat) (s : State) : (mountGroup g s).dp = s.dp := by
  unfold mountGroup
  dsimp only
  repeat' split
  all_goals rfl

@[simp] theorem startMount_dp (s : State) : (startMount s).dp = s.dp := mountGroup_dp _ _

@[simp] theorem endGroup_dp (g k : Nat) (s : State) : (endGroup g k s).dp = s.dp := by
  unfold endGroup
  dsimp only
  rw [mountGroup_dp]
  split <;> rfl

@[simp] theorem classify_dp (l : Loc) (c : ScanClass) (s : State) : (classify l c s).dp = s.dp := rfl

@[simp] theorem nextPosition_dp (l : Loc) (s : State) : (nextPosition l s).dp = s.dp := by
  unfold nextPosition
  split <;> simp

@[simp] theorem mountRead_dp (b : Bool) (s : State) : (mountRead b s).dp = s.dp := by
  unfold mountRead scanPosition
  repeat' split
  all_goals simp

@[simp] theorem reerased_dp (g : Nat) (o : Option Origin) (s : State) : (reerased g o s).dp = s.dp := by
  cases o <;> simp [reerased]

@[simp] theorem mountErased_dp (b : Bool) (s : State) : (mountErased b s).dp = s.dp := by
  unfold mountErased
  split <;> simp

@[simp] theorem mountResolve_dp (m : Mount) (s : State) : (mountResolve m s).dp = s.dp := by
  simp only [mountResolve, pruneNotes_dp]
  rw [foldl_keeps State.dp (fun s g => putGroup_dp g _ s)]
  rw [(loseErrors_spec m s).1]

@[simp] theorem takeReclaimOpen_dp (s : State) : (takeReclaimOpen s).dp = s.dp := by rw [takeReclaimOpen_frame]

@[simp] theorem takeHostOpen_dp (s : State) : (takeHostOpen s).dp = s.dp := by rw [takeHostOpen_frame]

@[simp] theorem mountReserve_dp (s : State) : (mountReserve s).dp = s.dp := by
  unfold mountReserve
  dsimp only
  repeat' split
  all_goals rfl

@[simp] theorem unmapRange_dp (a k : Nat) (e : MapEntry) (s : State) : (unmapRange a k e s).dp = s.dp := by
  unfold unmapRange
  split
  · rfl
  · exact foldl_keeps State.dp (fun s i => putEntry_dp _ _ s) _ s

@[simp] theorem enlist_dp (l : Fin 32) (s : State) : (enlist l s).dp = s.dp := by rw [enlist_frame]

@[simp] theorem voidTicket_dp (l : Fin 32) (s : State) : (voidTicket l s).dp = s.dp := by rw [voidTicket_frame]

@[simp] theorem givePartial_dp (m : Option (Fin 8)) (s : State) : (givePartial m s).dp = s.dp := by cases m <;> rfl

@[simp] theorem invalidate_dp (l : Fin 32) (s : State) : (invalidate l s).dp = s.dp := rfl

@[simp] theorem cacheUpdate_dp (f : Nat) (d : FolioData) (s : State) : (cacheUpdate f d s).dp = s.dp := by
  rw [cacheUpdate_frame]

@[simp] theorem wakeCause_dp (s : State) : (wakeCause s).dp = s.dp := by rw [wakeCause_frame]

@[simp] theorem submitPower_dp (s : State) : (submitPower s).dp = s.dp := wakeCause_dp _

@[simp] theorem wakeAction_dp (s : State) : (wakeAction s).dp = s.dp := by
  unfold wakeAction
  split <;> simp

@[simp] theorem settleMediaPower_dp (s : State) : (settleMediaPower s).dp = s.dp := by rw [settleMediaPower_frame]

@[simp] theorem enterSleep_dp (s : State) : (enterSleep s).dp = s.dp := breakWhere_dp _ _ _

@[simp] theorem mediaReadyOp_dp (s : State) : (mediaReadyOp s).dp = s.dp := by
  unfold mediaReadyOp
  split <;> rfl

@[simp] theorem armIntent_dp (s : State) : (armIntent s).dp = s.dp := by
  unfold armIntent
  split <;> rfl

@[simp] theorem frameStartOp_dp (s : State) : (frameStartOp s).dp = s.dp := by
  unfold frameStartOp
  split <;> rfl

@[simp] theorem typeDecode_dp (b : Byte) (a : WordAddr) (k : Byte) (s : State) : (typeDecode b a k s).dp = s.dp := by
  unfold typeDecode beginBurst
  repeat' split
  all_goals simp

@[simp] theorem pollWord_dp (s : State) : (pollWord s).dp = s.dp := by
  unfold pollWord clockPast
  repeat' split
  all_goals rfl

@[simp] theorem frameEndOp_dp (s : State) : (frameEndOp s).dp = s.dp := by
  unfold frameEndOp
  split <;> rfl

@[simp] theorem takeSnapshot_dp (s : State) : (takeSnapshot s).dp = s.dp := by
  unfold takeSnapshot
  split <;> rfl

@[simp] theorem dropConsumption_dp (s : State) : (dropConsumption s).dp = s.dp := by
  unfold dropConsumption
  repeat' split
  all_goals rfl

@[simp] theorem programFailed_dp (s : State) : (programFailed s).dp = s.dp := by
  unfold programFailed
  repeat' split
  all_goals simp

@[simp] theorem releaseRetry_dp (s : State) : (releaseRetry s).dp = s.dp := by rw [releaseRetry_frame]

@[simp] theorem chooseVictim_dp (s : State) : (chooseVictim s).dp = s.dp := by
  unfold chooseVictim
  repeat' split
  all_goals simp

@[simp] theorem reclaimCopied_dp (s : State) : (reclaimCopied s).dp = s.dp := by
  unfold reclaimCopied
  repeat' split
  all_goals simp

@[simp] theorem reclaimErased_dp (b : Bool) (s : State) : (reclaimErased b s).dp = s.dp := by
  unfold reclaimErased
  repeat' split
  all_goals simp

@[simp] theorem relocationCopied_dp (s : State) : (relocationCopied s).dp = s.dp := by
  unfold relocationCopied
  dsimp only
  repeat' split
  all_goals simp

@[simp] theorem tickQuiet_dp (s : State) : (tickQuiet s).dp = s.dp := by
  unfold tickQuiet
  split <;> rfl

@[simp] theorem tickCoalesce_dp (s : State) : (tickCoalesce s).dp = s.dp := by
  unfold tickCoalesce
  repeat' split
  all_goals rfl

@[simp] theorem tickIdle_dp (s : State) : (tickIdle s).dp = s.dp := by
  unfold tickIdle
  split <;> simp

@[simp] theorem atomicOffers_dp (k : Nat) (b : Word) (ls : List (Nat × Loc)) (acc : List Nat) (s : State) :
    (atomicOffers k b ls (acc, s)).2.dp = s.dp := by
  induction ls generalizing acc s with
  | nil => rfl
  | cons p ls ih => exact (ih _ _).trans (offerData_dp _ _ _ s)

@[simp] theorem fullReset_dp (k : ResetKind) (s : State) : (fullReset k s).dp = DataPort.reset := by rw [fullReset_frame]

@[simp] theorem partialReset_dp (k : ResetKind) (r : Option (FaultCode × FaultCode)) (s : State) :
    (partialReset k r s).dp = DataPort.reset := wakeCause_dp _

end Sys2Proof.Machine
end

section
/-!
The agreement of slots, run queue, completion queue, sequencer and port owner (`SlotsSound`), seen as a small machine of its
own: `State.agreement` is all that the invariant reads, each operation of the block leaves it alone or makes one of a few
moves on it, and each move keeps the invariant.
-/

namespace Sys2Proof.Machine

/-! ### The agreement and its moves -/

/-- What the invariant of the slots reads of a state: states and commands of the slots, the run queue, the slots that the
completion queue names, the slot whose apply is in progress, and the port owner. -/
structure Agreement where
  state : Fin 8 → SlotState
  cmd : Fin 8 → Cmd
  runQueue : List (Fin 8)
  recorded : List (Fin 8)
  applying : Option (Fin 8)
  owner : Option (Fin 8)

def State.agreement (s : State) : Agreement :=
  { state := fun n => (s.slot n).state, cmd := fun n => (s.slot n).desc.cmd, runQueue := s.csq.runQueue
    recorded := s.csq.completions.map fun c => c.slot, applying := s.csq.apply.map fun a => a.slot, owner := s.dp.owner }

/-- The invariant `SlotsSound`, by name. -/
structure Agreement.Sound (g : Agreement) : Prop where
  queueOnce : g.runQueue.Nodup
  queued : ∀ n, n ∈ g.runQueue ↔ g.state n ≠ .free
  recordOnce : g.recorded.Nodup
  done : ∀ n, n ∈ g.recorded ↔ g.state n = .done
  apply : ∀ n, g.applying = some n ↔ g.state n = .applying
  port : ∀ n, g.owner = some n → g.state n = .loading ∨ g.state n = .unloading
  loads : ∀ n, g.state n = .loading → g.cmd n = .write

theorem slotsSound_iff (s : State) : s.SlotsSound ↔ s.agreement.Sound :=
  ⟨fun ⟨h1, h2, h3, h4, h5, h6, h7⟩ => ⟨h1, h2, h3, h4, h5, h6, h7⟩,
    fun ⟨h1, h2, h3, h4, h5, h6, h7⟩ => ⟨h1, h2, h3, h4, h5, h6, h7⟩⟩

namespace Agreement

variable {g : Agreement} {n : Fin 8}

/-- Slot `n` is in use and not DONE, no slot but `n` holds the sequencer, and `n` does not own the port. -/
structure Holds (g : Agreement) (n : Fin 8) : Prop where
  used : g.state n ≠ .free
  undone : g.state n ≠ .done
  unsettled : g.state n ≠ .settling
  sole : ∀ m, g.applying = some m → m = n
  portless : g.owner ≠ some n

/-- The slot whose apply is in progress holds the sequencer. -/
theorem Sound.holds (h : g.Sound) (hn : g.applying = some n) : g.Holds n := by
  have hs : g.state n = .applying := (h.apply n).1 hn
  refine ⟨by simp [hs], by simp [hs], by simp [hs], fun m hm => Option.some.inj (hm.symm.trans hn), fun ho => ?_⟩
  rcases h.port n ho with hl | hl <;> simp [hs] at hl

/-- Slot `n` takes a state. -/
def move (g : Agreement) (n : Fin 8) (x : SlotState) : Agreement := { g with state := Function.update g.state n x }

@[simp] theorem move_cmd (g : Agreement) (n : Fin 8) (x : SlotState) : (g.move n x).cmd = g.cmd := rfl
@[simp] theorem move_runQueue (g : Agreement) (n : Fin 8) (x : SlotState) : (g.move n x).runQueue = g.runQueue := rfl
@[simp] theorem move_recorded (g : Agreement) (n : Fin 8) (x : SlotState) : (g.move n x).recorded = g.recorded := rfl
@[simp] theorem move_applying (g : Agreement) (n : Fin 8) (x : SlotState) : (g.move n x).applying = g.applying := rfl
@[simp] theorem move_owner (g : Agreement) (n : Fin 8) (x : SlotState) : (g.move n x).owner = g.owner := rfl

/-- A slot in use that takes another state in use: the other parts have to agree at that slot, and to stand elsewhere. -/
theorem Sound.moved (h : g.Sound) {x : SlotState} {recorded : List (Fin 8)} {applying owner : Option (Fin 8)}
    (hused : g.state n ≠ .free) (hx : x ≠ .free) (honce : recorded.Nodup)
    (hdone : ∀ m, m ∈ recorded ↔ if m = n then x = .done else g.state m = .done)
    (happly : ∀ m, applying = some m ↔ if m = n then x = .applying else g.state m = .applying)
    (hport : ∀ m, owner = some m → if m = n then x = .loading ∨ x = .unloading else g.owner = some m)
    (hload : x = .loading → g.cmd n = .write) :
    ({ g.move n x with recorded := recorded, applying := applying, owner := owner } : Agreement).Sound := by
  have hstate (m : Fin 8) : (g.move n x).state m = if m = n then x else g.state m := Function.update_apply _ _ _ _
  constructor
  case queueOnce => exact h.queueOnce
  case recordOnce => exact honce
  all_goals
    intro m
    dsimp only
    rw [hstate]
  case queued =>
    split
    · next hm => exact iff_of_true ((h.queued m).2 (hm ▸ hused)) hx
    · exact h.queued m
  case done => rw [hdone]; split <;> rfl
  case apply => rw [happly]; split <;> rfl
  case port =>
    intro hm
    have := hport m hm
    split at this
    · next he => rwa [if_pos he]
    · next he =>
      rw [if_neg he]
      exact h.port m this
  case loads =>
    split
    · next hm =>
      subst hm
      exact hload
    · exact h.loads m

/-- Slot `n` is DONE (R35): its record is appended, and it gives up sequencer and port. -/
def finish (g : Agreement) (n : Fin 8) : Agreement :=
  { g.move n .done with
    recorded := g.recorded ++ [n]
    applying := if g.applying = some n then none else g.applying
    owner := if g.owner = some n then none else g.owner }

/-- A reference to a slot, given up if it is to slot `n`, is to another slot. -/
theorem some_of_given_up {o : Option (Fin 8)} {m : Fin 8} :
    (if o = some n then none else o) = some m ↔ m ≠ n ∧ o = some m := by
  split
  · next ho => simp [ho, eq_comm]
  · next ho => exact ⟨fun hm => ⟨fun he => ho (he ▸ hm), hm⟩, And.right⟩

theorem Sound.finish (h : g.Sound) (hused : g.state n ≠ .free) (hundone : g.state n ≠ .done) : (g.finish n).Sound := by
  have hfresh : n ∉ g.recorded := fun hn => hundone ((h.done n).1 hn)
  refine h.moved hused (by decide) ?_ (fun m => ?_) (fun m => ?_) (fun m hm => ?_) nofun
  · refine List.nodup_append.2 ⟨h.recordOnce, List.nodup_singleton n, fun a ha b hb => ?_⟩
    rw [List.mem_singleton.1 hb]
    exact fun he => hfresh (he ▸ ha)
  · by_cases hm : m = n <;> simp [hm, h.done]
  · rw [some_of_given_up, h.apply]
    by_cases hm : m = n <;> simp [hm]
  · obtain ⟨hne, ho⟩ := some_of_given_up.1 hm
    rwa [if_neg hne]

/-- A slot that holds the sequencer goes on to a state in use, and keeps the sequencer exactly if it is APPLYING then. -/
theorem Sound.goOn (h : g.Sound) (hn : g.Holds n) {x : SlotState}
    (hx : x = .applying ∨ x = .unloading ∨ x = .settling) :
    ({ g.move n x with applying := if x = .applying then some n else none } : Agreement).Sound := by
  have hother (m : Fin 8) (hm : m ≠ n) : g.state m ≠ .applying := fun hs => hm (hn.sole m ((h.apply m).2 hs))
  have hfresh : n ∉ g.recorded := fun hr => hn.undone ((h.done n).1 hr)
  have hxfree : x ≠ .free ∧ x ≠ .done ∧ x ≠ .loading := by rcases hx with rfl | rfl | rfl <;> decide
  refine h.moved hn.used hxfree.1 h.recordOnce (fun m => ?_) (fun m => ?_) (fun m hm => ?_) (absurd · hxfree.2.2)
  · by_cases hm : m = n
    · simp [hm, hfresh, hxfree.2.1]
    · simp [hm, h.done]
  · by_cases hm : m = n
    · simp [hm]
    · simp [hm, Ne.symm hm, hother m hm]
  · rwa [if_neg fun he : m = n => hn.portless (he ▸ hm)]

/-- A QUEUED WRITE that receives a buffer is LOADING (R33). -/
theorem Sound.load (h : g.Sound) (hs : g.state n = .queued) (hw : g.cmd n = .write) : (g.move n .loading).Sound := by
  refine h.moved (by simp [hs]) (by decide) h.recordOnce (fun m => ?_) (fun m => ?_) (fun m hm => ?_) fun _ => hw
  · by_cases hm : m = n <;> simp [hm, h.done, hs]
  · by_cases hm : m = n <;> simp [hm, h.apply, hs]
  · by_cases he : m = n <;> simp [he, hm]

/-- The last word of a WRITE makes it LOADED and releases the port (R49). -/
theorem Sound.loaded (h : g.Sound) (hs : g.state n = .loading) : ({ g.move n .loaded with owner := none } : Agreement).Sound := by
  refine h.moved (by simp [hs]) (by decide) h.recordOnce (fun m => ?_) (fun m => ?_) nofun nofun
  · by_cases hm : m = n <;> simp [hm, h.done, hs]
  · by_cases hm : m = n <;> simp [hm, h.apply, hs]

/-- A FREE slot is QUEUED with a command, the youngest of the run queue (R22). -/
theorem Sound.accept (h : g.Sound) (hs : g.state n = .free) (c : Cmd) :
    ({ g.move n .queued with cmd := Function.update g.cmd n c, runQueue := g.runQueue ++ [n] } : Agreement).Sound := by
  have hfresh : n ∉ g.runQueue := fun hn => (h.queued n).1 hn hs
  have hstate (m : Fin 8) : (g.move n .queued).state m = if m = n then .queued else g.state m :=
    Function.update_apply _ _ _ _
  constructor
  case queueOnce =>
    refine List.nodup_append.2 ⟨h.queueOnce, List.nodup_singleton n, fun a ha b hb => ?_⟩
    rw [List.mem_singleton.1 hb]
    exact fun he => hfresh (he ▸ ha)
  case recordOnce => exact h.recordOnce
  all_goals
    intro m
    dsimp only
    rw [hstate]
  case queued => by_cases hm : m = n <;> simp [hm, h.queued]
  case done => by_cases hm : m = n <;> simp [hm, move, h.done, hs]
  case apply => by_cases hm : m = n <;> simp [hm, move, h.apply, hs]
  case port =>
    intro hm
    have hport := h.port m hm
    by_cases he : m = n
    · simp [he, hs] at hport
    · rwa [if_neg he]
  case loads =>
    by_cases hm : m = n
    · simp [hm]
    · rw [if_neg hm, Function.update_of_ne hm]
      exact h.loads m

/-- The slot of the head record is FREE, off both queues (R40). -/
theorem Sound.retire (h : g.Sound) {rest : List (Fin 8)} (hr : g.recorded = n :: rest) (c : Cmd) :
    ({ g.move n .free with
        cmd := Function.update g.cmd n c, runQueue := g.runQueue.erase n, recorded := rest } : Agreement).Sound := by
  have hs : g.state n = .done := (h.done n).1 (hr ▸ List.mem_cons_self)
  have honce : n ∉ rest ∧ rest.Nodup := List.nodup_cons.1 (hr ▸ h.recordOnce)
  have hstate (m : Fin 8) : (g.move n .free).state m = if m = n then .free else g.state m := Function.update_apply _ _ _ _
  constructor
  case queueOnce => exact h.queueOnce.erase n
  case recordOnce => exact honce.2
  all_goals
    intro m
    dsimp only
    rw [hstate]
  case queued => by_cases hm : m = n <;> simp [hm, h.queueOnce.mem_erase_iff, h.queued]
  case done =>
    have hm' := h.done m
    by_cases hm : m = n
    · simp [hm, honce.1]
    · simpa [hr, hm] using hm'
  case apply => by_cases hm : m = n <;> simp [hm, move, h.apply, hs]
  case port =>
    intro hm
    have hport := h.port m hm
    by_cases he : m = n
    · simp [he, hs] at hport
    · rwa [if_neg he]
  case loads =>
    by_cases hm : m = n
    · simp [hm]
    · rw [if_neg hm, Function.update_of_ne hm]
      exact h.loads m

/-- The port is given to a slot that is LOADING or UNLOADING (R47). -/
theorem Sound.own (h : g.Sound) (hs : g.state n = .loading ∨ g.state n = .unloading) :
    ({ g with owner := some n } : Agreement).Sound :=
  { h with port := fun _ hm => Option.some.inj hm ▸ hs }

end Agreement

end Sys2Proof.Machine
end

section
/-! The operations on slots as moves of the agreement, and the operations that leave it alone. -/

namespace Sys2Proof.Machine

variable {s t : State} {n : Fin 8}

/-! ### Reading slots -/

theorem slot_setSlot (n m : Fin 8) (x : Slot) (s : State) : (setSlot n x s).slot m = if m = n then x else s.slot m := by
  by_cases hm : m = n
  · rw [if_pos hm, hm, slot_setSlot_self]
  · rw [if_neg hm, slot_setSlot_ne x s hm]

theorem slot_modSlot (n m : Fin 8) (f : Slot → Slot) (s : State) :
    (modSlot n f s).slot m = if m = n then f (s.slot n) else s.slot m := slot_setSlot _ _ _ _

/-! ### Operations that leave the agreement alone -/

theorem agreement_congr (hcsq : t.csq = s.csq) (hdp : t.dp.owner = s.dp.owner) : t.agreement = s.agreement := by
  unfold State.agreement State.slot
  rw [hcsq, hdp]

theorem agreement_setSlot (n : Fin 8) (x : Slot) (s : State) : (setSlot n x s).agreement =
    { s.agreement.move n x.state with cmd := Function.update s.agreement.cmd n x.desc.cmd } := by
  have hstate : (fun m => ((setSlot n x s).slot m).state) = Function.update (fun m => (s.slot m).state) n x.state := by
    funext m
    rw [slot_setSlot, Function.update_apply]
    split <;> rfl
  have hcmd : (fun m => ((setSlot n x s).slot m).desc.cmd) = Function.update (fun m => (s.slot m).desc.cmd) n x.desc.cmd := by
    funext m
    rw [slot_setSlot, Function.update_apply]
    split <;> rfl
  simp only [State.agreement, Agreement.move, hstate, hcmd]
  rfl

/-- A slot whose command stands takes a state. -/
theorem agreement_modSlot_move (f : Slot → Slot) (hf : (f (s.slot n)).desc.cmd = (s.slot n).desc.cmd) :
    (modSlot n f s).agreement = s.agreement.move n (f (s.slot n)).state := by
  have hcmd : Function.update s.agreement.cmd n (s.slot n).desc.cmd = s.agreement.cmd := Function.update_eq_self n _
  rw [modSlot, agreement_setSlot, hf, hcmd]
  rfl

theorem agreement_modSlot {f : Slot → Slot} (hf : ∀ x, (f x).state = x.state ∧ (f x).desc.cmd = x.desc.cmd) :
    (modSlot n f s).agreement = s.agreement := by
  have hstate : Function.update s.agreement.state n (s.slot n).state = s.agreement.state := Function.update_eq_self n _
  rw [agreement_modSlot_move f (hf _).2, (hf _).1]
  unfold Agreement.move
  rw [hstate]

theorem agreement_mapSlots {f : Slot → Slot} (hf : ∀ x, (f x).state = x.state ∧ (f x).desc.cmd = x.desc.cmd) :
    (mapSlots f s).agreement = s.agreement := by
  unfold State.agreement
  simp only [slot_mapSlots, (hf _).1, (hf _).2]
  rfl

/-- The apply in progress goes on, in the same slot. -/
theorem agreement_setApply {a : Apply} (h : s.agreement.applying = some a.slot) :
    (setApply (some a) s).agreement = s.agreement := by
  have hsame : (setApply (some a) s).agreement = { s.agreement with applying := some a.slot } := rfl
  rw [hsame, ← h]

theorem setBuf_agreement (b : BufId) (x : Buffer) (s : State) : (setBuf b x s).agreement = s.agreement := by
  cases b <;> rfl

theorem placeFolio_agreement (n : Fin 8) (d : FolioData) (s : State) : (placeFolio n d s).agreement = s.agreement := by
  unfold placeFolio
  split
  · exact setBuf_agreement _ _ s
  · rfl

theorem satisfyTriples_agreement (p : Triple → Bool) (s : State) : (satisfyTriples p s).agreement = s.agreement :=
  agreement_mapSlots fun _ => ⟨rfl, rfl⟩

theorem givePartial_agreement (m : Option (Fin 8)) (s : State) : (givePartial m s).agreement = s.agreement := by
  cases m with
  | none => rfl
  | some n => exact agreement_modSlot fun _ => ⟨rfl, rfl⟩

theorem invalidate_agreement (l : Fin 32) (s : State) : (invalidate l s).agreement = s.agreement :=
  satisfyTriples_agreement _ _

theorem invalidateAll_agreement (ls : List (Fin 32)) (s : State) : (invalidateAll ls s).agreement = s.agreement :=
  foldl_keeps State.agreement (fun s l => invalidate_agreement l s) ls s

theorem writeDirty_agreement (l : Fin 32) (f : Nat) (d : FolioData) (s : State) :
    (writeDirty l f d s).agreement = s.agreement := by
  refine (agreement_congr (clearPoison_csq _ _) (by rw [clearPoison_dp])).trans ?_
  refine (agreement_congr (s := givePartial (s.line l).purgeMark s) ?_ ?_).trans (givePartial_agreement _ s)
  · simp
  · simp

theorem writeClean_agreement (l : Fin 32) (f : Nat) (d : FolioData) (s : State) :
    (writeClean l f d s).agreement = s.agreement :=
  (satisfyTriples_agreement _ _).trans (givePartial_agreement _ s)

theorem cacheUpdate_agreement (f : Nat) (d : FolioData) (s : State) : (cacheUpdate f d s).agreement = s.agreement := by
  unfold cacheUpdate
  repeat' split
  · exact writeClean_agreement _ f d s
  · exact writeClean_agreement _ f d s
  · rfl

theorem raiseFault_agreement (f : FaultCode) (s : State) : (raiseFault f s).agreement = s.agreement :=
  agreement_congr (raiseFault_csq f s) (by rw [raiseFault_dp])

theorem dirtyLineError_agreement (l : Fin 32) (s : State) : (dirtyLineError l s).agreement = s.agreement := by
  refine (agreement_congr (s := invalidate l s) ?_ ?_).trans (invalidate_agreement l s)
  · simp [dirtyLineError]
  · simp [dirtyLineError]

theorem lineError_agreement (l : Fin 32) (s : State) : (lineError l s).agreement = s.agreement := by
  unfold lineError
  split
  · exact dirtyLineError_agreement l s
  · exact (raiseFault_agreement .f4 _).trans (invalidate_agreement l s)

theorem dropStale_agreement (k : Ticket) (s : State) : (dropStale k s).agreement = s.agreement := by
  unfold dropStale
  repeat' split
  · exact invalidate_agreement _ s
  all_goals rfl

theorem settleOwnLine_agreement (k : Ticket) (s : State) : (settleOwnLine k s).agreement = s.agreement := by
  unfold settleOwnLine purgeLine
  dsimp only
  repeat' split
  · refine (agreement_modSlot fun _ => ?_).trans (invalidate_agreement _ s)
    exact ⟨rfl, rfl⟩
  all_goals rfl

theorem offerData_agreement (f : Nat) (q : Word) (l : Loc) (s : State) : (offerData f q l s).agreement = s.agreement :=
  agreement_congr (offerData_csq f q l s) (by rw [offerData_dp])

theorem settleTicket_agreement (k : Ticket) (l : Loc) (s : State) : (settleTicket k l s).agreement = s.agreement := by
  refine (satisfyTriples_agreement k.satisfies _).trans ?_
  dsimp only
  split
  · rfl
  · rw [settleOwnLine_agreement]
    split
    · rw [dropStale_agreement, offerData_agreement]
    · exact offerData_agreement _ _ _ s

theorem modFlags_agreement (n : Fin 8) (f : CompFlags → CompFlags) (s : State) : (modFlags n f s).agreement = s.agreement :=
  agreement_modSlot fun _ => ⟨rfl, rfl⟩

theorem noteCorrection_agreement (n : Fin 8) (k : Nat) (s : State) : (noteCorrection n k s).agreement = s.agreement := by
  unfold noteCorrection
  split
  · rfl
  · exact agreement_modSlot fun _ => ⟨rfl, rfl⟩

theorem releaseRetry_agreement (s : State) : (releaseRetry s).agreement = s.agreement := by
  unfold releaseRetry
  split
  · next a ha =>
    split
    · exact agreement_setApply (a := { a with heldRetry := false }) (by simp [State.agreement, ha])
    · rfl
  · rfl

theorem holdRetry_agreement (q : Requester) (s : State) : (holdRetry q s).agreement = s.agreement := by
  unfold holdRetry
  split
  · next a ha =>
    split
    · exact agreement_setApply (a := { a with heldRetry := true }) (by simp [State.agreement, ha])
    · rfl
  · rfl

theorem purgeExamine_agreement (n : Fin 8) (l : Fin 32) (s : State) : (purgeExamine n l s).agreement = s.agreement := by
  unfold purgeExamine
  dsimp only
  split
  · refine (agreement_modSlot fun _ => ?_).trans (invalidate_agreement l s)
    exact ⟨rfl, rfl⟩
  · exact givePartial_agreement _ s
  all_goals rfl

/-! ### Completion and settling -/

theorem releaseBuffer_owner (n : Fin 8) (s : State) :
    (releaseBuffer n s).dp.owner = if s.dp.owner = some n then none else s.dp.owner := by
  unfold releaseBuffer
  by_cases ho : s.dp.owner = some n
  · rcases s.bufOf n with _ | _ | _ <;> simp [setBuf, ho]
  · rcases s.bufOf n with _ | _ | _ <;> simp [setBuf, ho]

/-- The end of a command in the agreement (R35). -/
theorem completeSlot_agreement (n : Fin 8) (st : Status) (k : Nat) (s : State) :
    (completeSlot n st k s).agreement = s.agreement.finish n := by
  rw [completeSlot_eq]
  have hcount (p : Bool) (u : State) : (countCompletion p u).agreement = u.agreement :=
    agreement_congr (by rw [countCompletion_frame]) (by rw [countCompletion_frame])
  have hslots := agreement_setSlot n { s.slot n with
    state := .done, status := st, foliosDone := k, flags := (s.recordOf n st k).flags
    detail := (s.recordOf n st k).detail, triples := [] } s
  have hcmd : Function.update s.agreement.cmd n (s.slot n).desc.cmd = s.agreement.cmd := Function.update_eq_self n _
  rw [hcmd] at hslots
  have happly : (if s.csq.apply.any (fun a => a.slot == n) then none else s.csq.apply).map (fun a => a.slot)
      = if s.agreement.applying = some n then none else s.agreement.applying := by
    cases ha : s.csq.apply with
    | none => simp [State.agreement, ha]
    | some a => by_cases hn : a.slot = n <;> simp [State.agreement, ha, hn]
  refine (hcount _ _).trans ?_
  calc (recorded n st k s).agreement
      = { (setSlot n { s.slot n with
            state := .done, status := st, foliosDone := k, flags := (s.recordOf n st k).flags
            detail := (s.recordOf n st k).detail, triples := [] } s).agreement with
          recorded := (s.csq.completions ++ [s.recordOf n st k]).map fun c => c.slot
          applying := (if s.csq.apply.any (fun a => a.slot == n) then none else s.csq.apply).map fun a => a.slot
          owner := (releaseBuffer n s).dp.owner } := rfl
    _ = s.agreement.finish n := by
        rw [hslots, happly, releaseBuffer_owner, List.map_append]
        rfl

/-- From `g` to `g'` settling commands end, and no other slot changes. -/
structure Agreement.Settled (g g' : Agreement) : Prop where
  sound : g.Sound → g'.Sound
  others : ∀ n, g.state n ≠ .settling → g'.state n = g.state n
  queue : g'.runQueue = g.runQueue
  commands : g'.cmd = g.cmd
  owner : g'.owner = g.owner ∨ g'.owner = none

theorem Agreement.Settled.refl (g : Agreement) : g.Settled g := ⟨id, fun _ _ => rfl, rfl, rfl, .inl rfl⟩

theorem Agreement.Settled.trans {g g' g'' : Agreement} (h : g.Settled g') (h' : g'.Settled g'') : g.Settled g'' :=
  ⟨h'.sound ∘ h.sound, fun n hn => (h'.others n (h.others n hn ▸ hn)).trans (h.others n hn), h'.queue.trans h.queue,
    h'.commands.trans h.commands, h'.owner.elim (fun ho => ho ▸ h.owner) .inr⟩

theorem settleSlot_settled (n : Fin 8) (s : State) : s.agreement.Settled (settleSlot n s).agreement := by
  unfold settleSlot
  split
  · next hc =>
    have hs : s.agreement.state n = .settling := by
      simp only [Bool.and_eq_true, decide_eq_true_eq] at hc
      exact hc.1
    rw [completeSlot_agreement]
    refine ⟨fun h => h.finish (by simp [hs]) (by simp [hs]), fun m hm => ?_, rfl, rfl, ?_⟩
    · exact Function.update_of_ne (fun he : m = n => hm (he ▸ hs)) _ _
    · dsimp only [Agreement.finish]
      split
      · exact .inr rfl
      · exact .inl rfl
  · exact .refl _

theorem foldl_settled {f : State → Fin 8 → State} (hf : ∀ (s : State) n, s.agreement.Settled (f s n).agreement) (l : List (Fin 8))
    (s : State) : s.agreement.Settled (l.foldl f s).agreement := by
  induction l generalizing s with
  | nil => exact .refl _
  | cons n l ih => exact (hf s n).trans (ih _)

theorem settleSlots_settled (s : State) : s.agreement.Settled (settleSlots s).agreement := by
  refine Agreement.Settled.trans (foldl_settled (fun s n => ?_) _ s) (foldl_settled (fun s n => ?_) _ _)
  · split
    · exact .refl _
    · exact settleSlot_settled n s
  · split
    · exact settleSlot_settled n s
    · exact .refl _

end Sys2Proof.Machine
end

section
/-! Every operation of the sequencer, the slots and the data port keeps the agreement of the slots. -/

namespace Sys2Proof.Machine

variable {s t : State} {n : Fin 8} {a : Apply}

/-! ### The end of a command, and the evaluations at the end of a unit -/

theorem completeSlot_sound (h : s.agreement.Sound) (hused : (s.slot n).state ≠ .free) (hundone : (s.slot n).state ≠ .done)
    (st : Status) (k : Nat) : (completeSlot n st k s).agreement.Sound := by
  rw [completeSlot_agreement]
  exact h.finish hused hundone

theorem settleSlots_sound (h : s.agreement.Sound) : (settleSlots s).agreement.Sound := (settleSlots_settled s).sound h

theorem finishApply_sound (h : s.agreement.Sound) (hn : s.agreement.Holds n) (st : Status) (k : Nat) :
    (finishApply n st k s).agreement.Sound := by
  have hstate := (settleSlots_settled s).others n hn.unsettled
  exact completeSlot_sound (settleSlots_sound h) (fun he => hn.used (hstate ▸ he)) (fun he => hn.undone (hstate ▸ he)) st k

theorem nextForBuffer_spec {l : List (Fin 8)} (h : s.nextForBuffer l = some n) :
    n ∈ l ∧ (s.slot n).desc.cmd.isData = true ∧ (s.slot n).state = .queued ∧ s.bufOf n = none := by
  induction l with
  | nil => simp [State.nextForBuffer] at h
  | cons m l ih =>
    simp only [State.nextForBuffer] at h
    split_ifs at h with h1 h2
    · obtain rfl := Option.some.inj h
      simp only [Bool.and_eq_true, decide_eq_true_eq, Option.isNone_iff_eq_none] at h2
      exact ⟨List.mem_cons_self, h2.1.1, h2.1.2, h2.2⟩
    · obtain ⟨hm, hrest⟩ := ih h
      exact ⟨List.mem_cons_of_mem _ hm, hrest⟩

theorem assignOne_sound (h : s.agreement.Sound) : (assignOne s).agreement.Sound := by
  unfold assignOne
  split
  · exact h
  · split
    · next b n hb hn =>
      obtain ⟨-, -, hs, -⟩ := nextForBuffer_spec hn
      have hbuf := setBuf_agreement b { holder := some n, words := [], consumed := 0 } s
      dsimp only
      split_ifs with hw
      · rw [agreement_modSlot_move (n := n) _ rfl, hbuf]
        exact h.load hs (by rw [← hbuf]; exact hw)
      · rwa [hbuf]
    · exact h

/-- Only a LOADING or UNLOADING slot has words to move (R46). -/
theorem moving_of_portEligible (h : s.portEligible n = true) : (s.slot n).state = .loading ∨ (s.slot n).state = .unloading := by
  have hwords : 0 < s.wordsRemaining n := of_decide_eq_true h
  unfold State.wordsRemaining at hwords
  split at hwords
  · next hs => exact .inl hs
  · next hs => exact .inr hs
  · exact absurd hwords (lt_irrefl 0)

theorem chooseOwner_sound (h : s.agreement.Sound) : (chooseOwner s).agreement.Sound := by
  unfold chooseOwner
  split
  · exact h
  · split
    · next n hn => exact h.own (moving_of_portEligible (List.find?_some hn))
    · exact h

theorem endUnit_sound (h : s.agreement.Sound) : (endUnit s).agreement.Sound := by
  have hpower (u : State) : (evalPower (settleMediaPower u)).agreement = u.agreement :=
    agreement_congr (by simp) (by simp)
  have hmedia (u : State) : (evalDraining (evalMedia u)).agreement = u.agreement := agreement_congr (by simp) (by simp)
  unfold endUnit
  rw [hpower]
  refine chooseOwner_sound (settleSlots_sound (assignOne_sound (assignOne_sound ?_)))
  rw [hmedia, releaseRetry_agreement]
  exact h

/-! ### Applies -/

/-- The agreement is sound, and the apply of slot `n` is in progress. -/
structure Agreement.Applies (g : Agreement) (n : Fin 8) : Prop where
  sound : g.Sound
  applying : g.applying = some n

theorem Agreement.Applies.holds {g : Agreement} (h : g.Applies n) : g.Holds n := h.sound.holds h.applying

theorem applies_of_apply (h : s.agreement.Sound) (ha : s.csq.apply = some a) : s.agreement.Applies a.slot :=
  ⟨h, by simp [State.agreement, ha]⟩

theorem Agreement.Applies.finishApply (h : s.agreement.Applies n) (st : Status) (k : Nat) :
    (finishApply n st k s).agreement.Sound := finishApply_sound h.sound h.holds st k

theorem setApply_applies (h : s.agreement.Applies a.slot) : (setApply (some a) s).agreement.Applies a.slot := by
  rwa [agreement_setApply h.applying]

theorem nextStep_sound (h : s.agreement.Applies a.slot) : (nextStep a s).agreement.Sound :=
  (setApply_applies (a := { a with step := a.step + 1, wait := .between }) h).sound

theorem requestMedia_sound (h : s.agreement.Applies a.slot) (r : MediaReq) : (requestMedia a r s).agreement.Sound :=
  (setApply_applies (a := { a with wait := .forMedia r }) h).sound

theorem finishCount_sound (h : s.agreement.Applies a.slot) : (finishCount a s).agreement.Sound := h.finishApply _ _

theorem advanceWrite_sound (h : s.agreement.Applies a.slot) : (advanceWrite a s).agreement.Sound := by
  unfold advanceWrite
  split
  · exact nextStep_sound h
  · exact finishCount_sound h

theorem advancePrefetch_sound (h : s.agreement.Applies a.slot) : (advancePrefetch a s).agreement.Sound := by
  unfold advancePrefetch
  split
  · exact nextStep_sound h
  · exact h.finishApply _ _

theorem endPlacing_sound (h : s.agreement.Sound) (hn : s.agreement.Holds n) : (endPlacing n s).agreement.Sound := by
  have hmove : (modSlot n (fun sl => { sl with state := .unloading }) (setApply none s)).agreement.Sound := by
    rw [agreement_modSlot_move (n := n) _ rfl]
    exact h.goOn hn (.inr (.inl rfl))
  unfold endPlacing
  dsimp only
  split
  · exact finishApply_sound h hn _ _
  · split
    · rw [agreement_modSlot fun _ => ?_, agreement_congr (s := modSlot n _ (setApply none s)) (createRsv_csq _ _)
        (by rw [createRsv_dp])]
      · exact hmove
      · exact ⟨rfl, rfl⟩
    · exact hmove

theorem advanceRead_sound (h : s.agreement.Applies a.slot) : (advanceRead a s).agreement.Sound := by
  unfold advanceRead
  split
  · exact nextStep_sound h
  · exact endPlacing_sound h.sound h.holds

theorem readUnreadable_sound (h : s.agreement.Applies a.slot) (f : Nat) : (readUnreadable a f s).agreement.Sound := by
  have hmod : (modSlot a.slot (fun sl => { sl with status := .unreadable, detail := BitVec.ofNat 32 f }) s).agreement.Applies
      a.slot := by
    rw [agreement_modSlot fun _ => ?_]
    · exact h
    · exact ⟨rfl, rfl⟩
  exact endPlacing_sound hmod.sound hmod.holds

theorem placeFolio_applies (h : s.agreement.Applies n) (d : FolioData) : (placeFolio n d s).agreement.Applies n := by
  rwa [placeFolio_agreement]

theorem modFlags_applies (h : s.agreement.Applies n) (f : CompFlags → CompFlags) : (modFlags n f s).agreement.Applies n := by
  rwa [modFlags_agreement]

theorem readMiss_sound (h : s.agreement.Applies a.slot) (f : Nat) : (readMiss a f s).agreement.Sound := by
  unfold readMiss
  split
  · exact advanceRead_sound (placeFolio_applies (modFlags_applies h _) _)
  · exact advanceRead_sound (placeFolio_applies (modFlags_applies h _) _)
  · exact readUnreadable_sound h f
  · split
    · exact requestMedia_sound (s := allocFilling _ f s) h _
    · exact requestMedia_sound h _

theorem readStep_sound (h : s.agreement.Applies a.slot) (bad : Bool) : (readStep a bad s).agreement.Sound := by
  unfold readStep
  split
  · next l _ =>
    split
    · refine readMiss_sound ?_ _
      rwa [lineError_agreement]
    · exact advanceRead_sound (placeFolio_applies (s := touch l s) h _)
  · exact readMiss_sound h _

theorem prefetchStep_sound (h : s.agreement.Applies a.slot) : (prefetchStep a s).agreement.Sound := by
  unfold prefetchStep
  split
  · exact advancePrefetch_sound h
  · split
    · exact requestMedia_sound (s := allocFilling _ _ s) h _
    · exact h.finishApply _ _

theorem cachedStep_sound (h : s.agreement.Applies a.slot) : (cachedStep a s).agreement.Sound := by
  have hwrite (l : Fin 32) (f : Nat) (d : FolioData) : (advanceWrite a (writeDirty l f d s)).agreement.Sound :=
    advanceWrite_sound (by rwa [writeDirty_agreement])
  unfold cachedStep
  dsimp only
  split
  · exact hwrite _ _ _
  · split
    · exact hwrite _ _ _
    · exact (setApply_applies (a := { a with wait := .forLine }) h).sound

theorem atomicUpdate_sound (h : s.agreement.Applies a.slot) : (atomicUpdate a s).agreement.Sound := by
  unfold atomicUpdate
  split
  · exact finishCount_sound h
  · next i rest _ =>
    dsimp only
    have hupdate : (cacheUpdate ((s.slot a.slot).desc.folio + i) (s.bufferFolio a.slot i) s).agreement.Applies a.slot := by
      rwa [cacheUpdate_agreement]
    split
    · exact finishCount_sound (setApply_applies (a := { a with accepted := [] }) hupdate)
    · exact (setApply_applies (a := { a with step := a.step + 1, wait := .between, accepted := rest }) hupdate).sound

theorem atomicStep_sound (h : s.agreement.Applies a.slot) : (atomicStep a s).agreement.Sound := by
  have htake (m : Nat) : (if a.step = 0 then takeSeq m s else s).agreement = s.agreement := by split <;> rfl
  have hslot : (if a.step = 0 then { a with seq0 := s.mm.seq } else a).slot = a.slot := by split <;> rfl
  unfold atomicStep
  dsimp only
  split
  · exact atomicUpdate_sound h
  · split
    all_goals
      refine requestMedia_sound ?_ _
      rwa [htake, hslot]

theorem trimStep_sound (h : s.agreement.Applies a.slot) : (trimStep a s).agreement.Sound := by
  unfold trimStep
  split
  · refine nextStep_sound ?_
    rw [agreement_modSlot fun _ => ?_, invalidateAll_agreement]
    · exact h
    · exact ⟨rfl, rfl⟩
  · exact requestMedia_sound (a := { a with seq0 := s.mm.seq }) (s := takeSeq 1 s) h _
  · refine Agreement.Applies.finishApply ?_ _ _
    rwa [agreement_congr (s := s) (unmapRange_csq _ _ _ _) (by rw [unmapRange_dp])]

theorem discardStep_sound (h : s.agreement.Applies a.slot) : (discardStep a s).agreement.Sound := by
  refine finishCount_sound ?_
  rw [agreement_modSlot fun _ => ?_, invalidateAll_agreement]
  · exact h
  · exact ⟨rfl, rfl⟩

theorem stepWork_sound (h : s.agreement.Applies a.slot) (bad : Bool) : (stepWork a bad s).agreement.Sound := by
  cases hk : a.kind <;> simp only [stepWork, hk]
  case read => exact readStep_sound h bad
  case writeCached => exact cachedStep_sound h
  case writeThrough => exact requestMedia_sound (s := takeSeq 1 s) h _
  case writeAtomic => exact atomicStep_sound h
  case trim => exact trimStep_sound h
  case eraseAll => exact trimStep_sound h
  case prefetch => exact prefetchStep_sound h
  case discard => exact discardStep_sound h
  all_goals exact h.sound

theorem applyStepOp_sound (h : s.agreement.Sound) (bad : Bool) : (applyStepOp bad s).agreement.Sound := by
  unfold applyStepOp
  split
  · next a ha =>
    have happ := applies_of_apply h ha
    split
    · unfold beginStep
      split
      · exact (setApply_applies (a := { a with wait := .forReclaim }) happ).sound
      · exact stepWork_sound happ bad
    · exact h
  · exact h

theorem endWait_sound (h : s.agreement.Sound) : (endWait s).agreement.Sound := by
  unfold endWait
  split
  · next a ha => exact stepWork_sound (applies_of_apply h ha) false
  · exact h

end Sys2Proof.Machine
end

section
/-! The starts of commands, the due steps and the media events keep the agreement of the slots. -/

namespace Sys2Proof.Machine

variable {s t : State} {n : Fin 8} {a : Apply}

/-! ### The starts -/

/-- A slot that is due to start holds a sequencer that is free (R27). -/
theorem holds_of_due_start (h : s.agreement.Sound) (hd : s.due = some (.start n)) :
    s.agreement.Holds n ∧ s.agreement.applying = none := by
  have hnone : s.csq.apply = none := apply_none_of_due_start hd
  have happly : s.agreement.applying = none := by simp [State.agreement, hnone]
  have hstart : s.startable = some n := by
    simp only [State.due, hnone] at hd
    split at hd
    · next m hm =>
      cases hd
      exact hm
    · split at hd <;> simp at hd
  have hnext : s.nextCommand = some n ∧ s.slotReady n = true := by
    unfold State.startable at hstart
    split_ifs at hstart
    split at hstart
    · next m hm =>
      split_ifs at hstart with hr
      cases hstart
      exact ⟨hm, hr⟩
    · cases hstart
  have hready : s.agreement.state n = .queued ∨ s.agreement.state n = .loaded := by
    have hun : s.unapplied n = true := List.find?_some (p := s.unapplied) hnext.1
    simp only [State.unapplied, Bool.or_eq_true, beq_iff_eq] at hun
    rcases hun with (hq | hl) | hl
    · exact .inl hq
    · have hw : (s.slot n).desc.cmd = .write := h.loads n hl
      have hr := hnext.2
      simp [State.slotReady, hw, hl] at hr
    · exact .inr hl
  refine ⟨⟨fun he => ?_, fun he => ?_, fun he => ?_, fun m hm => ?_, fun ho => ?_⟩, happly⟩
  · simp [he] at hready
  · simp [he] at hready
  · simp [he] at hready
  · simp [happly] at hm
  · rcases h.port n ho with hp | hp <;> simp [hp] at hready

theorem enterApply_sound (h : s.agreement.Sound) (hn : s.agreement.Holds n) (k : StartKind) (w : Wait) :
    (enterApply n k w s).agreement.Sound := by
  have hmove := h.goOn hn (.inl rfl : SlotState.applying = .applying ∨ _)
  have hslots := agreement_modSlot_move (n := n) (s := s) (fun sl => { sl with state := .applying }) rfl
  have hset : (enterApply n k w s).agreement
      = { (modSlot n (fun sl => { sl with state := .applying }) s).agreement with applying := some n } := rfl
  rw [hset, hslots]
  exact hmove

theorem endSettling_sound (h : s.agreement.Sound) (hn : s.agreement.Holds n) (ha : s.agreement.applying = none) :
    (endSettling n s).agreement.Sound := by
  refine settleSlots_sound ?_
  rw [agreement_modSlot_move (n := n) _ rfl]
  have hmove := h.goOn hn (.inr (.inr rfl) : SlotState.settling = .applying ∨ _)
  rw [if_neg (by decide), ← ha] at hmove
  exact hmove

theorem raised_agreement {f : State → State} (hcsq : ∀ u, (f u).csq = u.csq) (hdp : ∀ u, (f u).dp = u.dp) (s : State) :
    (f s).agreement = s.agreement := agreement_congr (hcsq s) (by rw [hdp])

theorem breakWhere_agreement (p : Rsv → Bool) (c : BreakCause) (s : State) : (breakWhere p c s).agreement = s.agreement :=
  agreement_congr (breakWhere_csq p c s) (by rw [breakWhere_dp])

theorem writeBufferError_sound (h : s.agreement.Sound) (hused : (s.slot n).state ≠ .free) (hundone : (s.slot n).state ≠ .done) :
    (writeBufferError n s).agreement.Sound := by
  have hsame : (modSlot n (fun sl => { sl with flags := .none, detail := 0 }) (raiseFault .f4 s)).agreement = s.agreement := by
    rw [agreement_modSlot fun _ => ?_, raiseFault_agreement]
    exact ⟨rfl, rfl⟩
  have hstate := congrArg (fun g => g.state n) hsame
  refine completeSlot_sound (by rwa [hsame]) ?_ ?_ _ _
  · exact fun he => hused (hstate.symm.trans he)
  · exact fun he => hundone (hstate.symm.trans he)

theorem startWrite_sound (h : s.agreement.Sound) (hn : s.agreement.Holds n) (k : StartKind) (bad : Bool) :
    (startWrite n k bad s).agreement.Sound := by
  unfold startWrite
  split
  · exact writeBufferError_sound h hn.used hn.undone
  · unfold commitWrite
    dsimp only
    split_ifs
    · exact completeSlot_sound h hn.used hn.undone _ _
    · exact completeSlot_sound h hn.used hn.undone _ _
    · unfold writeRsvActions
      dsimp only
      rw [breakWhere_agreement]
      split
      · exact enterApply_sound h hn k .between
      · exact enterApply_sound h hn k .between

theorem agreement_setDetail (n : Fin 8) (v : Word) (s : State) :
    (modSlot n (fun sl => { sl with detail := v }) s).agreement = s.agreement := by
  rw [agreement_modSlot fun _ => ?_]
  exact ⟨rfl, rfl⟩

/-- A record with other results than state and command holds the sequencer as before. -/
theorem holds_modSlot {f : Slot → Slot} (hf : ∀ x, (f x).state = x.state ∧ (f x).desc.cmd = x.desc.cmd)
    (h : s.agreement.Sound) (hn : s.agreement.Holds n) :
    (modSlot n f s).agreement.Sound ∧ (modSlot n f s).agreement.Holds n := by
  rw [agreement_modSlot hf]
  exact ⟨h, hn⟩

theorem commitRecord_sound (h : s.agreement.Sound) (hn : s.agreement.Holds n) (d : Word) (w : FolioData) :
    (commitRecord n d w s).agreement.Sound := by
  have hsame : (placeFolio n w (modSlot n (fun sl => { sl with detail := d }) s)).agreement = s.agreement := by
    rw [placeFolio_agreement, agreement_modSlot fun _ => ?_]
    exact ⟨rfl, rfl⟩
  exact endPlacing_sound (by rwa [hsame]) (by rwa [hsame])

theorem startSlot_sound (h : s.agreement.Sound) (hn : s.agreement.Holds n) (ha : s.agreement.applying = none) (bad : Bool) :
    (startSlot n bad s).agreement.Sound := by
  have hsettle {f : Slot → Slot} (hf : ∀ x, (f x).state = x.state ∧ (f x).desc.cmd = x.desc.cmd) :
      (endSettling n (modSlot n f s)).agreement.Sound :=
    endSettling_sound (holds_modSlot hf h hn).1 (holds_modSlot hf h hn).2 (by rwa [agreement_modSlot hf])
  have hbegin (k : StartKind) : (beginApply n k s).agreement.Sound := enterApply_sound h hn k .between
  have hdone (st : Status) : (completeSlot n st 0 s).agreement.Sound := completeSlot_sound h hn.used hn.undone st 0
  cases hk : (s.slot n).desc.startKind s.fc.wt <;> simp only [startSlot, hk]
  case read => exact hbegin .read
  case prefetch => exact hbegin .prefetch
  case writeCached => exact startWrite_sound h hn _ bad
  case writeThrough => exact startWrite_sound h hn _ bad
  case writeAtomic => exact startWrite_sound h hn _ bad
  case trim =>
    unfold commitTrim
    dsimp only
    split
    · exact hdone _
    · rw [breakWhere_agreement]
      exact hbegin .trim
  case discard =>
    unfold commitDiscard
    dsimp only
    rw [breakWhere_agreement]
    exact hbegin .discard
  case eraseAll =>
    unfold commitEraseAll breakAll
    split
    · exact hdone _
    · rw [breakWhere_agreement]
      exact hbegin .eraseAll
  case clean => exact hsettle fun _ => ⟨rfl, rfl⟩
  case flush => exact hsettle fun _ => ⟨rfl, rfl⟩
  case sync => exact hsettle fun _ => ⟨rfl, rfl⟩
  case purge =>
    have hfold : ((s.linesIn (s.slot n).desc.folio (s.slot n).desc.count).foldl (fun s l => purgeExamine n l s) s).agreement
        = s.agreement := foldl_keeps State.agreement (fun s l => purgeExamine_agreement n l s) _ s
    unfold commitPurge
    dsimp only
    refine endSettling_sound ?_ ?_ ?_
    all_goals rw [agreement_modSlot fun _ => ?_, hfold]
    · exact h
    · exact ⟨rfl, rfl⟩
    · exact hn
    · exact ⟨rfl, rfl⟩
    · exact ha
    · exact ⟨rfl, rfl⟩
  case describe => exact commitRecord_sound h hn _ _
  case healthCounters => exact commitRecord_sound h hn _ _
  case healthDefectList => exact commitRecord_sound h hn _ _
  case sleep =>
    have hdetail := agreement_setDetail n (BitVec.ofNat 32 s.dirtyCount) s
    exact enterApply_sound (by rwa [hdetail]) (by rwa [hdetail]) _ _

/-! ### What is due -/

theorem perform_sound {d : Due} (h : s.agreement.Sound) (hd : s.due = some d) (bad : Bool) : (perform d bad s).agreement.Sound := by
  cases d with
  | start n =>
    obtain ⟨hn, ha⟩ := holds_of_due_start h hd
    exact endUnit_sound (startSlot_sound h hn ha bad)
  | lineWaitEnd => exact endUnit_sound (endWait_sound h)
  | foregroundEnd => exact endUnit_sound (endWait_sound h)
  | dozeEntry => exact endUnit_sound (s := enterDoze s) h

theorem settleDue_sound (h : s.agreement.Sound) (k : Nat) : (settleDue k s).agreement.Sound := by
  induction k generalizing s with
  | zero => exact h
  | succ k ih =>
    unfold settleDue
    split
    · next d hd => exact ih (perform_sound h hd false)
    · exact h

theorem caughtUp_sound (h : s.agreement.Sound) : (caughtUp s).agreement.Sound := settleDue_sound h 24

theorem settleUntil_sound (p : State → Due → Bool) (h : s.agreement.Sound) (k : Nat) : (settleUntil p k s).agreement.Sound := by
  induction k generalizing s with
  | zero => exact h
  | succ k ih =>
    unfold settleUntil
    split
    · next d hd =>
      split
      · exact h
      · exact ih (perform_sound h hd false)
    · exact h

theorem dueRow_sound (p : State → Due → Bool) (bad : Bool) (h : s.agreement.Sound) : (dueRow p bad s).agreement.Sound := by
  have huntil := settleUntil_sound p h 24
  unfold dueRow performIf
  split
  · next d hd =>
    split
    · exact perform_sound huntil hd bad
    · exact huntil
  · exact huntil

/-! ### The media port -/

theorem answerUnmapped_sound (h : s.agreement.Applies a.slot) (f : Nat) : (answerUnmapped a f s).agreement.Sound := by
  unfold answerUnmapped
  split
  · exact advancePrefetch_sound h
  · exact readMiss_sound h f

theorem grantApply_sound (h : s.agreement.Sound) : ∀ t ∈ grantApply s, t.agreement.Sound := by
  have hmap {α : Type} (o : Option α) (f : α → State) (hf : ∀ x, (f x).agreement = s.agreement) :
      ∀ t ∈ o.map f, t.agreement.Sound := by
    intro t ht
    obtain ⟨x, -, rfl⟩ := Option.map_eq_some_iff.1 ht
    rwa [hf]
  unfold grantApply
  split
  · simp
  · next a ha =>
    have happ := applies_of_apply h ha
    split
    · split
      · exact hmap _ _ fun _ => rfl
      · next l f _ _ =>
        intro t ht
        obtain rfl := Option.some.inj ht
        exact answerUnmapped_sound (by rwa [invalidate_agreement]) f
    · split
      · exact hmap _ _ fun _ => rfl
      · next f _ _ =>
        intro t ht
        obtain rfl := Option.some.inj ht
        exact answerUnmapped_sound happ f
    · split
      · simp
      · exact hmap _ _ fun _ => rfl
    all_goals simp

theorem grantTicket_agreement (s : State) : ∀ t ∈ grantTicket s, t.agreement = s.agreement := by
  unfold grantTicket
  split
  · simp only [Option.mem_def, Option.map_eq_some_iff]
    rintro t ⟨g, -, rfl⟩
    rfl
  · simp

theorem grantReclaim_agreement (s : State) : ∀ t ∈ grantReclaim s, t.agreement = s.agreement := by
  unfold grantReclaim
  simp only [Option.mem_def]
  repeat' split
  all_goals
    simp only [Option.map_eq_some_iff, Option.some.injEq, reduceCtorEq, false_implies, implies_true]
  · rintro t ⟨g, -, rfl⟩
    rfl
  · rintro t ⟨g, -, rfl⟩
    rfl
  all_goals
    rintro t rfl
    rfl

theorem grantRelocation_agreement (s : State) : ∀ t ∈ grantRelocation s, t.agreement = s.agreement := by
  unfold grantRelocation
  simp only [Option.mem_def]
  split
  · simp only [Option.map_eq_some_iff]
    rintro t ⟨g, -, rfl⟩
    rfl
  · split
    · simp
    · simp only [Option.some.injEq]
      rintro t rfl
      split
      · rfl
      · rfl

theorem grantFirst_sound (h : s.agreement.Sound) : (grantFirst s).agreement.Sound := by
  have happly := grantApply_sound h
  have hticket := grantTicket_agreement s
  have hreclaim := grantReclaim_agreement s
  have hrelocation := grantRelocation_agreement s
  unfold grantFirst
  split
  · cases hg : grantApply s with
    | none => exact h
    | some t => exact happly t hg
  · dsimp only
    have hany : ∀ l : List (Option State), (∀ o ∈ l, ∀ t ∈ o, t.agreement.Sound) →
        ((l.findSome? id).getD s).agreement.Sound := by
      intro l hl
      cases hf : l.findSome? id with
      | none => exact h
      | some t =>
        obtain ⟨o, ho, hot⟩ := List.exists_of_findSome?_eq_some hf
        exact hl o ho t hot
    refine hany _ ?_
    split
    all_goals
      simp only [List.mem_cons, List.not_mem_nil, or_false, forall_eq_or_imp, forall_eq]
    · exact ⟨fun t ht => hreclaim t ht ▸ h, happly, fun t ht => hticket t ht ▸ h, fun t ht => hrelocation t ht ▸ h⟩
    · exact ⟨happly, fun t ht => hticket t ht ▸ h, fun t ht => hreclaim t ht ▸ h, fun t ht => hrelocation t ht ▸ h⟩

theorem portGrant_sound (h : s.agreement.Sound) : (portGrant s).agreement.Sound := by
  unfold portGrant
  split
  · refine grantFirst_sound ?_
    split
    · exact h
    · rwa [raised_agreement reclaimProgress_csq reclaimProgress_dp]
  · exact h

theorem applyReadGood_sound (h : s.agreement.Applies a.slot) (r : MediaReq) (bits : Nat) (d : FolioData) :
    (applyReadGood a r bits d s).agreement.Sound := by
  have hplace {u : State} (hu : u.agreement.Applies a.slot) :
      (advanceRead a (placeFolio a.slot d (noteCorrection a.slot bits u))).agreement.Sound :=
    advanceRead_sound (placeFolio_applies (by rwa [noteCorrection_agreement]) d)
  unfold applyReadGood
  split
  · next l _ =>
    dsimp only
    have hfill : (fillLine l d s).agreement.Applies a.slot := h
    split
    · refine advancePrefetch_sound ?_
      rw [agreement_modSlot fun _ => ?_]
      · exact hfill
      · exact ⟨rfl, rfl⟩
    · exact hplace hfill
  · exact hplace h
  · exact h.sound

theorem applyReadBad_sound (h : s.agreement.Applies a.slot) (r : MediaReq) : (applyReadBad a r s).agreement.Sound := by
  unfold applyReadBad
  split
  · next l f =>
    dsimp only
    have hinv : (invalidate l s).agreement.Applies a.slot := by rwa [invalidate_agreement]
    split
    · exact advancePrefetch_sound hinv
    · exact readUnreadable_sound hinv f
  · exact readUnreadable_sound h _
  · exact h.sound

theorem applyRead_sound (h : s.agreement.Sound) (loc : Loc) (r : ReadResult) : (applyRead loc r s).agreement.Sound := by
  unfold applyRead
  split
  · exact h
  · next a ha =>
    have happ := applies_of_apply h ha
    split
    · split
      · exact applyReadBad_sound (by rwa [raised_agreement (poisonTarget_csq loc) (poisonTarget_dp loc)]) _
      · refine applyReadGood_sound ?_ _ _ _
        rwa [raised_agreement (offerWorn_csq loc _) (offerWorn_dp loc _)]
    all_goals exact h

theorem readResult_sound (h : s.agreement.Sound) (q : Requester) (loc : Loc) (r : ReadResult) :
    (readResult q loc r s).agreement.Sound := by
  have hcount (x : ReadResult) : (countRead x (clearPort s)).agreement.Sound := by
    rw [raised_agreement (countRead_csq x) (countRead_dp x)]
    exact h
  unfold readResult
  dsimp only
  split
  · exact applyRead_sound (hcount _) loc _
  · rw [raised_agreement (orphanRead_csq loc _) (orphanRead_dp loc _)]
    exact hcount _
  · rw [raised_agreement (reclaimRead_csq loc _) (reclaimRead_dp loc _)]
    exact hcount _
  · rw [raised_agreement (relocationRead_csq loc _) (relocationRead_dp loc _)]
    exact hcount _
  · exact hcount _
  · exact hcount _

theorem readComplete_sound (h : s.agreement.Sound) (r : ReadResult) : (readComplete r s).agreement.Sound := by
  unfold readComplete
  repeat' split
  case isFalse => exact readResult_sound h _ _ r
  all_goals exact h

theorem throughLanded_sound (h : s.agreement.Applies a.slot) (loc : Loc) (p : Prog) :
    (throughLanded a loc p s).agreement.Sound := by
  have hoffer : (offerData p.metadata.start p.metadata.seq loc s).agreement.Applies a.slot := by rwa [offerData_agreement]
  unfold throughLanded
  dsimp only
  refine advanceWrite_sound ?_
  rw [agreement_modSlot fun _ => ?_]
  · split
    · rwa [cacheUpdate_agreement]
    · exact hoffer
  · exact ⟨rfl, rfl⟩

theorem atomicLanded_sound (h : s.agreement.Applies a.slot) (loc : Loc) (p : Prog) :
    (atomicLanded a loc p s).agreement.Sound := by
  unfold atomicLanded
  split
  · exact nextStep_sound (a := { a with pendingLocs := a.pendingLocs ++ [loc] }) h
  · unfold commitLanded
    dsimp only
    have hnote (m : Media) (v base : Word) (locs : List (Nat × Loc)) (start : Nat) :
        (modSlot a.slot (fun sl => { sl with detail := v })
          { (atomicOffers start base locs ([], s)).2 with mm := m }).agreement.Applies a.slot := by
      rw [agreement_setDetail]
      have hsame : ({ (atomicOffers start base locs ([], s)).2 with mm := m } : State).agreement = s.agreement :=
        agreement_congr (atomicOffers_csq start base locs [] s)
          (congrArg DataPort.owner (atomicOffers_dp start base locs [] s))
      rwa [hsame]
    split
    · refine finishCount_sound (setApply_applies ?_)
      exact hnote _ _ _ _ _
    · refine (setApply_applies ?_).sound
      exact hnote _ _ _ _ _

theorem applyLanded_sound (h : s.agreement.Sound) (loc : Loc) (p : Prog) : (applyLanded loc p s).agreement.Sound := by
  unfold applyLanded
  split
  · exact h
  · next a ha =>
    have happ := applies_of_apply h ha
    split
    · exact throughLanded_sound happ loc p
    · exact atomicLanded_sound happ loc p
    · exact nextStep_sound (a := { a with noteLoc := some loc }) happ
    · exact nextStep_sound (a := { a with noteLoc := some loc }) happ
    all_goals exact h

theorem landProgram_agreement (loc : Loc) (p : Prog) (s : State) : (landProgram loc p s).agreement = s.agreement :=
  raised_agreement (landProgram_csq loc p) (landProgram_dp loc p) s

theorem programComplete_sound (h : s.agreement.Sound) : (programComplete s).agreement.Sound := by
  unfold programComplete
  repeat' split
  · exact applyLanded_sound (by rwa [landProgram_agreement]) _ _
  · rw [raised_agreement (fun u => by rw [tearProgram_frame]) (tearProgram_dp _ _)]
    exact h
  all_goals exact h

theorem wbeCaptureOp_agreement (bad : Bool) (s : State) : (wbeCaptureOp bad s).agreement = s.agreement := by
  unfold wbeCaptureOp
  repeat' split
  · rfl
  · exact dirtyLineError_agreement _ s
  · rfl
  · rfl

theorem ticketLanded_agreement (s : State) : (ticketLanded s).agreement = s.agreement := by
  unfold ticketLanded
  repeat' split
  · rw [settleTicket_agreement, landProgram_agreement]
  all_goals rfl

theorem sleepComplete_sound (h : s.agreement.Sound) : (sleepComplete s).agreement.Sound := by
  unfold sleepComplete
  split
  · next a ha =>
    have happ := applies_of_apply h ha
    split
    · unfold completeSleep
      split
      · exact (modFlags_applies happ _).finishApply _ _
      · rw [raised_agreement enterSleep_csq enterSleep_dp]
        exact happ.finishApply _ _
    · exact h
  · exact h

end Sys2Proof.Machine
end

section
/-! The data port, the registers, the tick and the resets keep the agreement of the slots, and so does every command (O11). -/

namespace Sys2Proof.Machine

variable {s t : State} {n : Fin 8} {a : Apply}

/-- An operation whose result does not read like a change of slots, run queue, completion queue, sequencer or port owner. -/
theorem sound_of_same {f : State → State} (hcsq : ∀ u, (f u).csq = u.csq) (hdp : ∀ u, (f u).dp = u.dp)
    (h : s.agreement.Sound) : (f s).agreement.Sound := by rwa [raised_agreement hcsq hdp]

/-- What every reset leaves of slots and port (R43, R44) agrees. -/
theorem sound_of_reset (hcsq : s.csq = Csq.reset) (hdp : s.dp = DataPort.reset) : s.agreement.Sound := by
  have hs : s.agreement = State.reset.agreement := agreement_congr hcsq (by rw [hdp]; rfl)
  rw [hs]
  exact (slotsSound_iff _).1 (by decide)

/-! ### Buffers -/

theorem readBufferError_sound (h : s.agreement.Sound) (hs : (s.slot n).state = .unloading) :
    (readBufferError n s).agreement.Sound := by
  have hsame : (if (raiseFault .f4 s).dp.owner = some n then dropConsumption (raiseFault .f4 s) else raiseFault .f4 s).agreement
      = s.agreement := by
    split
    · rw [raised_agreement dropConsumption_csq dropConsumption_dp, raiseFault_agreement]
    · exact raiseFault_agreement .f4 s
  have hstate := congrArg (fun g => g.state n) hsame
  unfold readBufferError
  dsimp only
  refine completeSlot_sound (by rwa [hsame]) ?_ ?_ _ _
  · exact fun he => absurd (hs.symm.trans (hstate.symm.trans he)) (by decide)
  · exact fun he => absurd (hs.symm.trans (hstate.symm.trans he)) (by decide)

theorem checkBuffer_sound (h : s.agreement.Sound) (b : BufId) (w : Option Nat) : (checkBuffer b w s).agreement.Sound := by
  unfold checkBuffer
  split
  · next w n hn =>
    split
    · next hc =>
      split
      · next hs => exact settleSlots_sound (readBufferError_sound h hs)
      · have hstate : (s.slot n).state ≠ .free ∧ (s.slot n).state ≠ .done := by
          constructor
          · intro he
            simp [State.checksWord, he] at hc
          · intro he
            simp [State.checksWord, he] at hc
        exact settleSlots_sound (writeBufferError_sound h hstate.1 hstate.2)
    · exact h
  · exact h

theorem unloading_of_badCapture {bad : Bool} (h : s.badCapture bad = some n) : (s.slot n).state = .unloading := by
  unfold State.badCapture at h
  split at h
  · split at h
    · next m _ =>
      split_ifs at h with hs
      cases h
      exact hs
    · cases h
  · cases h

theorem captureWord_agreement (s : State) : (captureWord s).agreement = s.agreement := agreement_congr rfl rfl

theorem captureOp_sound (h : s.agreement.Sound) (bad : Bool) : (captureOp bad s).agreement.Sound := by
  unfold captureOp
  split
  · exact h
  · split
    · split
      · next n hn =>
        rw [captureWord_agreement]
        exact readBufferError_sound h (unloading_of_badCapture hn)
      · rw [captureWord_agreement]
        exact sound_of_same takeSnapshot_csq takeSnapshot_dp h
    · split
      · exact h
      · exact h

theorem bumpConsumed_agreement (n : Fin 8) (s : State) : (bumpConsumed n s).agreement = s.agreement := by
  unfold bumpConsumed
  split
  · exact setBuf_agreement _ _ s
  · rfl

theorem appendWord_agreement (n : Fin 8) (w : Word) (s : State) : (appendWord n w s).agreement = s.agreement := by
  unfold appendWord
  split
  · exact setBuf_agreement _ _ s
  · rfl

theorem consumeData_sound (h : s.agreement.Sound) : (consumeData s).agreement.Sound := by
  unfold consumeData
  split
  · next n _ =>
    split
    · next hs =>
      dsimp only
      have hsame := bumpConsumed_agreement n s
      have hstate : ((bumpConsumed n s).slot n).state = .unloading := (congrArg (fun g => g.state n) hsame).trans hs
      split
      · exact completeSlot_sound (by rwa [hsame]) (by simp [hstate]) (by simp [hstate]) _ _
      · rwa [hsame]
    · exact h
  · exact h

theorem applyEffect_sound (h : s.agreement.Sound) (e : ReadEffect) : (applyEffect e s).agreement.Sound := by
  cases e with
  | consumeWord => exact consumeData_sound h
  | strayReject c => exact sound_of_same (reject_csq _ _ _) (reject_dp _ _ _) h
  | nothing | dropped | pushClaim _ | raiseF1 => exact h

theorem completeWord_sound (h : s.agreement.Sound) (p : WordAddr → Bool) : (completeWord p s).agreement.Sound := by
  unfold completeWord
  split
  · split
    · exact endUnit_sound (applyEffect_sound (s := wordDone s) h _)
    · exact h
  · exact h

theorem storeWord_sound (h : s.agreement.Sound) (hs : (s.slot n).state = .loading) (w : Word) :
    (storeWord n w s).agreement.Sound := by
  have hsame := appendWord_agreement n w s
  have hstate : ((appendWord n w s).slot n).state = .loading := (congrArg (fun g => g.state n) hsame).trans hs
  unfold storeWord
  dsimp only
  split
  · have hmove := agreement_modSlot_move (n := n) (s := appendWord n w s) (fun sl => { sl with state := .loaded }) rfl
    have hset : ∀ u : State, ({ u with dp := { u.dp with owner := none } } : State).agreement = { u.agreement with owner := none } :=
      fun _ => rfl
    rw [hset, hmove]
    exact (hsame ▸ h : (appendWord n w s).agreement.Sound).loaded hstate
  · rwa [hsame]

theorem dataWrite_sound (h : s.agreement.Sound) (w : Word) : (dataWrite w s).agreement.Sound := by
  unfold dataWrite
  split
  · exact sound_of_same (reject_csq _ _ _) (reject_dp _ _ _) h
  · split
    · next hs => exact storeWord_sound h hs w
    · exact sound_of_same (reject_csq _ _ _) (reject_dp _ _ _) h

/-! ### SUBMIT, ABORT and RETIRE -/

theorem badValue_sound (h : s.agreement.Sound) (a : Byte) : (badValue a s).agreement.Sound :=
  sound_of_same (badValue_csq a) (badValue_dp a) h

theorem acceptCommand_sound (h : s.agreement.Sound) (hs : (s.slot n).state = .free) (d : Desc) :
    (acceptCommand n d s).agreement.Sound := by
  unfold acceptCommand
  refine sound_of_same submitPower_csq submitPower_dp ?_
  have hslots := agreement_setSlot n (Slot.accepted d) s
  have hset : ∀ u : State, ({ u with csq := { u.csq with runQueue := u.csq.runQueue ++ [n] } } : State).agreement
      = { u.agreement with runQueue := u.agreement.runQueue ++ [n] } := fun _ => rfl
  rw [hset, hslots]
  exact h.accept hs d.cmd

theorem free_of_submitChecks {w : Word} {d : Desc} (h : s.submitChecks w = .inr (n, d)) : (s.slot n).state = .free := by
  unfold State.submitChecks at h
  dsimp only at h
  split at h
  · split at h
    · cases h
    · next hfree =>
      split at h
      · cases h
      · split at h
        · cases h
        · cases h
          simpa using hfree
  · cases h

theorem submitWrite_sound (h : s.agreement.Sound) (w : Word) : (submitWrite w s).agreement.Sound := by
  unfold submitWrite
  split
  · exact badValue_sound h _
  · split
    · exact sound_of_same (reject_csq _ _ _) (reject_dp _ _ _) h
    · next n d hd => exact acceptCommand_sound h (free_of_submitChecks hd) d

theorem abortSlot_sound (h : s.agreement.Sound) (n : Fin 8) : (abortSlot n s).agreement.Sound := by
  have hlate : (modSlot n (fun sl => { sl with lateAbort := true }) s).agreement = s.agreement := by
    rw [agreement_modSlot fun _ => ?_]
    exact ⟨rfl, rfl⟩
  unfold abortSlot
  split
  case h_1 => exact h
  case h_8 => exact h
  case h_5 => rwa [hlate]
  case h_6 hs =>
    have hmarks : (dropMarks n s).slot n = s.slot n := rfl
    exact completeSlot_sound (s := dropMarks n s) h (by simp [hmarks, hs]) (by simp [hmarks, hs]) _ _
  all_goals
    next hs => exact completeSlot_sound h (by simp [hs]) (by simp [hs]) _ _

theorem abortWrite_sound (h : s.agreement.Sound) (w : Word) : (abortWrite w s).agreement.Sound := by
  unfold abortWrite
  split
  · exact badValue_sound h _
  · split
    · exact abortSlot_sound h _
    · exact sound_of_same (reject_csq _ _ _) (reject_dp _ _ _) h

theorem retireHead_sound (h : s.agreement.Sound) : (retireHead s).agreement.Sound := by
  unfold retireHead
  split
  · exact h
  · next c rest hc =>
    have hrec : s.agreement.recorded = c.slot :: rest.map fun c => c.slot := by simp [State.agreement, hc]
    have hslots := agreement_setSlot c.slot Slot.free s
    have hset : ∀ u : State,
        ({ u with csq := { u.csq with completions := rest, runQueue := u.csq.runQueue.erase c.slot } } : State).agreement
          = { u.agreement with
              recorded := rest.map fun c => c.slot, runQueue := u.agreement.runQueue.erase c.slot } := fun _ => rfl
    rw [hset, hslots]
    exact h.retire hrec _

theorem retireWrite_sound (h : s.agreement.Sound) (w : Word) : (retireWrite w s).agreement.Sound := by
  unfold retireWrite
  split
  · exact badValue_sound h _
  · exact retireHead_sound h

/-! ### Resets and hard faults -/

theorem partialReset_sound (k : ResetKind) (r : Option (FaultCode × FaultCode)) (s : State) :
    (partialReset k r s).agreement.Sound := sound_of_reset (partialReset_csq k r s) (partialReset_dp k r s)

theorem fullReset_sound (k : ResetKind) (s : State) : (fullReset k s).agreement.Sound :=
  sound_of_reset (fullReset_csq k s) (fullReset_dp k s)

theorem raiseHard_sound (h : s.agreement.Sound) (f : FaultCode) : (raiseHard f s).agreement.Sound := by
  unfold raiseHard
  split
  · exact partialReset_sound _ _ s
  · rwa [raiseFault_agreement]

theorem hostControlOp_sound (h : s.agreement.Sound) (w : Word) : (hostControlOp w s).agreement.Sound := by
  unfold hostControlOp
  dsimp only
  split
  · exact badValue_sound h _
  · split
    · exact partialReset_sound _ _ _
    · split
      · exact sound_of_same wakeAction_csq wakeAction_dp (s := { s with rst := { s.rst with nen := w.getLsbD 0 } }) h
      · exact h

theorem startMount_sound (h : s.agreement.Sound) : (startMount s).agreement.Sound :=
  sound_of_same startMount_csq startMount_dp h

theorem portConfigOp_sound (h : s.agreement.Sound) (w : Word) : (portConfigOp w s).agreement.Sound := by
  unfold portConfigOp
  split_ifs
  · exact badValue_sound h _
  · exact h
  · exact fullReset_sound .port s
  · exact startMount_sound (s := { s with rst := { s.rst with portReset := false } }) h
  · exact h

theorem porEndOp_sound (h : s.agreement.Sound) : (porEndOp s).agreement.Sound := by
  unfold porEndOp
  split
  · exact startMount_sound (s := { s with rst := { s.rst with inReset := none } }) h
  · exact h

theorem pinResetOp_sound (h : s.agreement.Sound) : (pinResetOp s).agreement.Sound := by
  unfold pinResetOp
  split
  · exact h
  · exact fullReset_sound .pin _

theorem pinReleaseOp_sound (h : s.agreement.Sound) : (pinReleaseOp s).agreement.Sound := by
  unfold pinReleaseOp
  dsimp only
  split
  · split
    · exact startMount_sound (s := { s with rst := { s.rst with resetnLow := false, inReset := none } }) h
    · exact h
  · exact h

/-! ### Registers -/

/-- The registers of the Notification Controller and the settings take part in no agreement. -/
theorem settings_agreement {r : Reg}
    (hr : r ∉ ([.portConfig, .hostControl, .submit, .abort, .retire, .dataPort] : List Reg)) (w : Word) (s : State) :
    (writeReg r w s).agreement = s.agreement := by
  have hbad (a : Byte) : (badValue a s).agreement = s.agreement := raised_agreement (badValue_csq a) (badValue_dp a) s
  cases r
  case portConfig | hostControl | submit | abort | retire | dataPort => simp at hr
  case rejectLog =>
    simp only [writeReg, rejectLogOp]
    split_ifs
    · exact hbad _
    · rfl
    · rfl
  case cd n =>
    simp only [writeReg, cdOp]
    split_ifs
    · exact hbad _
    · rfl
  case evPending =>
    simp only [writeReg, evPendingWrite]
    split_ifs
    · rfl
    · exact hbad _
  case evEnable =>
    simp only [writeReg, evEnableWrite]
    split_ifs
    · rfl
    · exact hbad _
  case evLevel =>
    simp only [writeReg, evLevelWrite]
    split_ifs
    · rfl
    · exact hbad _
  case faultPending =>
    simp only [writeReg, faultPendingWrite]
    split_ifs
    · rfl
    · exact hbad _
  case endReg =>
    simp only [writeReg, endOp]
    split_ifs
    · exact hbad _
    · split <;> rfl
  case service =>
    simp only [writeReg, serviceOp]
    split_ifs
    · rfl
    · exact hbad _
  case ntcConfig =>
    simp only [writeReg, ntcConfigWrite]
    split_ifs
    · rfl
    · exact hbad _
  case quiet =>
    simp only [writeReg, quietOp]
    split_ifs
    · exact hbad _
    · rfl
    · rfl
  case coalesce =>
    simp only [writeReg, coalesceOp]
    split_ifs
    · rfl
    · rfl
    · exact hbad _
  case cachePolicy =>
    simp only [writeReg, cachePolicyOp]
    split_ifs
    · rfl
    · exact hbad _
  case dozeDelay =>
    simp only [writeReg, dozeDelayOp]
    split_ifs
    · exact hbad _
    · rfl
    · exact raised_agreement armIntent_csq armIntent_dp { s with pwr := { s.pwr with dozeDelay := w.extractLsb' 0 8 } }
  all_goals rfl

theorem writeReg_sound (h : s.agreement.Sound) (r : Reg) (w : Word) : (writeReg r w s).agreement.Sound := by
  by_cases hr : r ∈ ([.portConfig, .hostControl, .submit, .abort, .retire, .dataPort] : List Reg)
  · simp only [List.mem_cons, List.not_mem_nil, or_false] at hr
    rcases hr with rfl | rfl | rfl | rfl | rfl | rfl
    · exact portConfigOp_sound h w
    · exact hostControlOp_sound h w
    · exact submitWrite_sound h w
    · exact abortWrite_sound h w
    · exact retireWrite_sound h w
    · exact dataWrite_sound h w
  · rwa [settings_agreement hr]

theorem writeAt_sound (h : s.agreement.Sound) {f : State → State} (hf : ∀ u : State, u.agreement.Sound → (f u).agreement.Sound)
    (a : WordAddr) : (writeAt a f s).agreement.Sound := by
  unfold writeAt
  dsimp only
  have hadv : ({ s with hpi := s.hpi.advance } : State).agreement.Sound := h
  split
  · refine endUnit_sound ?_
    split
    · exact hadv
    · exact hf _ hadv
  · exact h

/-! ### The tick -/

theorem reerased_sound (h : s.agreement.Sound) (g : Nat) (o : Option Origin) : (reerased g o s).agreement.Sound :=
  sound_of_same (reerased_csq g o) (reerased_dp g o) h

theorem abandon_sound (h : s.agreement.Sound) (op : PortOp) : (abandon op s).agreement.Sound := by
  unfold abandon
  split
  · rw [holdRetry_agreement]
    exact sound_of_same (programLost_csq _ _ _ _) (programLost_dp _ _ _ _) h
  · split
    · exact reerased_sound h _ _
    · exact sound_of_same (failErase_csq _ _) (failErase_dp _ _) h
  · split
    · refine sound_of_same (nextPosition_csq _) (nextPosition_dp _) ?_
      exact sound_of_same (classify_csq _ _) (classify_dp _ _) (s := clearPort s) h
    · exact readResult_sound h _ _ _

theorem tickStall_sound (h : s.agreement.Sound) : (tickStall s).agreement.Sound := by
  unfold tickStall
  split
  · next op _ =>
    split
    · have hraise : (raiseStall (abandon op s)).agreement.Sound :=
        raiseHard_sound (s := modMount (fun m => { m with raisedF3 := true }) (abandon op s)) (abandon_sound h op) .f3
      unfold stallOp
      dsimp only
      split
      · exact hraise
      · exact hraise
    · exact h
  · exact h

theorem tickPowerUp_sound (h : s.agreement.Sound) : (tickPowerUp s).agreement.Sound := by
  unfold tickPowerUp
  split
  · split
    · exact raiseHard_sound (s := { s with pwr := { s.pwr with powerUp := some 0 } }) h .f3
    · exact h
  · exact h

theorem tickWhen_sound (h : s.agreement.Sound) (p : State → Bool) (w0 w1 : Option Nat) :
    (tickWhen p w0 w1 s).agreement.Sound := by
  unfold tickWhen
  split
  · unfold tickOp tickBuffers
    refine sound_of_same tickIdle_csq tickIdle_dp (sound_of_same tickCoalesce_csq tickCoalesce_dp
      (sound_of_same tickQuiet_csq tickQuiet_dp ?_))
    exact checkBuffer_sound (checkBuffer_sound (tickPowerUp_sound (settleSlots_sound (tickStall_sound h))) _ _) _ _
  · exact h

theorem mountFinish_sound (h : s.agreement.Sound) : (mountFinish s).agreement.Sound := by
  unfold mountFinish
  split
  · next m _ =>
    split
    · have hcounts : (mountCounts m (evalReclaim (mountReserve (takeHostOpen (takeReclaimOpen (mountResolve m s)))))).agreement
          = s.agreement := agreement_congr (by simp) (by simp)
      have hfault {u : State} (hu : u.agreement.Sound) : (mountFault m u).agreement.Sound := by
        unfold mountFault
        split
        · next loc _ =>
          have hraise : (raiseMap loc u).agreement.Sound := by
            unfold raiseMap
            split
            · exact partialReset_sound _ _ _
            · have hf : (raiseFault .f2 u).agreement.Sound := by rwa [raiseFault_agreement]
              exact hf
          dsimp only
          split_ifs <;> exact hraise
        · exact hu
      exact hfault (by rwa [hcounts])
    · exact h
  · exact h

/-! ### Every command -/

theorem exec_sound (h : s.agreement.Sound) (c : Instr) : ∃ t, exec c s = .next t ∧ t.agreement.Sound := by
  have hc : (caughtUp s).agreement.Sound := caughtUp_sound h
  have hwrite (a : WordAddr) (r : Reg) (w : Word) : (writeAt a (writeReg r w) (caughtUp s)).agreement.Sound :=
    writeAt_sound hc (fun _ hu => writeReg_sound hu r w) a
  have hunit {f : State → State} (hcsq : ∀ u, (f u).csq = u.csq) (hdp : ∀ u, (f u).dp = u.dp) :
      (endUnit (f (caughtUp s))).agreement.Sound := endUnit_sound (sound_of_same hcsq hdp hc)
  cases c with
  | registerWrite a w =>
    refine ⟨_, rfl, writeAt_sound hc (fun u hu => ?_) a⟩
    unfold writeAddr
    split
    · exact writeReg_sound hu _ w
    · exact hu
  | dataPortWrite a w =>
    refine ⟨_, rfl, ?_⟩
    split
    · exact hwrite a .dataPort w
    · exact hc
  | rejectLogClear w => exact ⟨_, rfl, hwrite _ .rejectLog w⟩
  | cdWrite n w => exact ⟨_, rfl, hwrite _ (.cd n) w⟩
  | submit w => exact ⟨_, rfl, hwrite _ .submit w⟩
  | abort w => exact ⟨_, rfl, hwrite _ .abort w⟩
  | retire w => exact ⟨_, rfl, hwrite _ .retire w⟩
  | wake w | nenWrite w | controllerReset w => exact ⟨_, rfl, hwrite _ .hostControl w⟩
  | portReset w | portResetRelease w => exact ⟨_, rfl, hwrite _ .portConfig w⟩
  | evPendingClear w => exact ⟨_, rfl, hwrite _ .evPending w⟩
  | faultPendingClear w => exact ⟨_, rfl, hwrite _ .faultPending w⟩
  | endWrite w => exact ⟨_, rfl, hwrite _ .endReg w⟩
  | serviceWrite w => exact ⟨_, rfl, hwrite _ .service w⟩
  | quietWrite w => exact ⟨_, rfl, hwrite _ .quiet w⟩
  | coalesceWrite w => exact ⟨_, rfl, hwrite _ .coalesce w⟩
  | cachePolicyWrite w => exact ⟨_, rfl, hwrite _ .cachePolicy w⟩
  | dozeDelayWrite w => exact ⟨_, rfl, hwrite _ .dozeDelay w⟩
  | frameStart => exact ⟨_, rfl, sound_of_same frameStartOp_csq frameStartOp_dp hc⟩
  | frameEnd => exact ⟨_, rfl, sound_of_same frameEndOp_csq frameEndOp_dp hc⟩
  | statePoll => exact ⟨_, rfl, sound_of_same pollWord_csq pollWord_dp hc⟩
  | frameTypeDecode b a k => exact ⟨_, rfl, hunit (typeDecode_csq b a k) (typeDecode_dp b a k)⟩
  | readWordCapture b => exact ⟨_, rfl, endUnit_sound (captureOp_sound hc b)⟩
  | dataPortRead | claim => exact ⟨_, rfl, completeWord_sound hc _⟩
  | applyStep b => exact ⟨_, rfl, endUnit_sound (applyStepOp_sound hc b)⟩
  | mediaPortGrant => exact ⟨_, rfl, endUnit_sound (portGrant_sound hc)⟩
  | mediaReadComplete r => exact ⟨_, rfl, endUnit_sound (readComplete_sound hc r)⟩
  | mediaProgramComplete => exact ⟨_, rfl, endUnit_sound (programComplete_sound hc)⟩
  | programFail => exact ⟨_, rfl, hunit programFailed_csq programFailed_dp⟩
  | wbeCapture b => exact ⟨_, rfl, endUnit_sound (by rwa [wbeCaptureOp_agreement])⟩
  | ticketComplete => exact ⟨_, rfl, endUnit_sound (by rwa [ticketLanded_agreement])⟩
  | sleepCompletion => exact ⟨_, rfl, endUnit_sound (sleepComplete_sound hc)⟩
  | mediaReady => exact ⟨_, rfl, hunit mediaReadyOp_csq mediaReadyOp_dp⟩
  | por => exact ⟨_, rfl, endUnit_sound (fullReset_sound .por _)⟩
  | porEnd => exact ⟨_, rfl, endUnit_sound (porEndOp_sound hc)⟩
  | pinReset => exact ⟨_, rfl, endUnit_sound (pinResetOp_sound hc)⟩
  | pinResetRelease => exact ⟨_, rfl, endUnit_sound (pinReleaseOp_sound hc)⟩
  | mountMetadataReadComplete b => exact ⟨_, rfl, hunit (mountRead_csq b) (mountRead_dp b)⟩
  | mountReeraseComplete b => exact ⟨_, rfl, hunit (mountErased_csq b) (mountErased_dp b)⟩
  | mountEnd => exact ⟨_, rfl, endUnit_sound (mountFinish_sound hc)⟩
  | reclaimVictimChoice => exact ⟨_, rfl, hunit chooseVictim_csq chooseVictim_dp⟩
  | reclaimCopyComplete => exact ⟨_, rfl, hunit reclaimCopied_csq reclaimCopied_dp⟩
  | reclaimEraseComplete b => exact ⟨_, rfl, hunit (reclaimErased_csq b) (reclaimErased_dp b)⟩
  | relocationCopyComplete => exact ⟨_, rfl, hunit relocationCopied_csq relocationCopied_dp⟩
  | tick w0 w1 | stallLimit w0 w1 | powerupStall w0 w1 | quietEnd w0 w1 | coalesceTimeout w0 w1 | dozeIntentArm w0 w1 =>
    exact ⟨_, rfl, endUnit_sound (tickWhen_sound hc _ w0 w1)⟩
  | read | writeCached _ | writeThrough _ | writeAtomic _ | trim | prefetch | discard | clean | flush | purge | sync
  | describe | healthCounters | healthDefectList | sleep | eraseAll | lineWaitEnd | reclaimForegroundEnd | dozeEntry =>
    exact ⟨_, rfl, dueRow_sound _ _ h⟩

/-- Settles O11: every command keeps the agreement of the slots, and an empty queue changes nothing. -/
theorem stepKeepsSlotsAgreed : Obligations.StepKeepsSlotsAgreed := by
  unfold Obligations.StepKeepsSlotsAgreed
  intro s t h hstep
  rw [slotsSound_iff] at h ⊢
  unfold step at hstep
  split at hstep
  · cases hstep
    exact h
  · next c rest _ =>
    have hs : ({ s with pending := rest } : State).agreement.Sound := h
    obtain ⟨u, hu, hsound⟩ := exec_sound hs c
    rw [hu] at hstep
    cases hstep
    exact hsound

end Sys2Proof.Machine
end

section
/-! The machine (O1, O2, O12), the select pin and the type byte (O16, O17), and how a completion is recorded and counted (O27,
O28). -/

namespace Sys2Proof.Machine

/-! ### The machine -/

/-- Settles O1: both are the branches of `step`. -/
theorem stepRunsFrontCommand : Obligations.StepRunsFrontCommand := by
  unfold Obligations.StepRunsFrontCommand
  refine ⟨fun c s => rfl, fun s hs => ?_⟩
  unfold step
  rw [hs]

/-- Settles O2: the next state of `exec_keeps`. -/
theorem everyCommandAnswers : Obligations.EveryCommandAnswers := by
  unfold Obligations.EveryCommandAnswers
  intro c s
  obtain ⟨t, ht, -⟩ := exec_keeps c s
  exact ⟨t, ht⟩

/-- Settles O12, by evaluation at the one state after reset. -/
theorem resetMeetsInvariants : Obligations.ResetMeetsInvariants := by
  unfold Obligations.ResetMeetsInvariants
  decide

/-! ### The select pin and the type byte -/

/-- Settles O16. -/
theorem selectPinBracketsFrames : Obligations.SelectPinBracketsFrames := by
  unfold Obligations.SelectPinBracketsFrames
  refine fun s hrest => ⟨fun hsel => ?_, fun hsel => ?_⟩
  · change Host.Outcome.next (frameStartOp (caughtUp s)) = _
    rw [caughtUp_atRest hrest]
    simp [frameStartOp, hsel, State.portDead]
  · change Host.Outcome.next (frameEndOp (caughtUp s)) = _
    rw [caughtUp_atRest hrest]
    simp [frameEndOp, hsel]

theorem exec_frameTypeDecode {s : State} (h : s.AtRest) (b : Byte) (a : WordAddr) (k : Byte) :
    exec (.frameTypeDecode b a k) s = .next (endUnit (typeDecode b a k s)) := by
  change Host.Outcome.next (endUnit (typeDecode b a k (caughtUp s))) = _
  rw [caughtUp_atRest h]

/-- Settles O17: the four branches of the decode. -/
theorem typeByteSelectsFrame : Obligations.TypeByteSelectsFrame := by
  unfold Obligations.TypeByteSelectsFrame
  intro s b a k hrest hphase
  rw [exec_frameTypeDecode hrest, typeDecode, if_pos hphase]
  refine ⟨?_, ?_, ?_, fun h1 h2 h5 => ?_⟩
  · rintro rfl
    rfl
  · rintro rfl
    rfl
  · rintro rfl
    rfl
  · rw [if_neg h1, if_neg h2, if_neg h5]

/-! ### Completions -/

theorem countCompletion_announces {p : Bool} {s : State}
    (h : p = true ∨ s.ntc.unannounced + 1 = s.ntc.threshold.toNat) : countCompletion p s = announce s := by
  unfold countCompletion
  rw [if_pos (by simpa using h)]

theorem countCompletion_counts {s : State} (h : s.ntc.unannounced + 1 ≠ s.ntc.threshold.toNat) :
    countCompletion false s = { s with ntc := { s.ntc with
      unannounced := s.ntc.unannounced + 1, timer := s.ntc.timerAfter } } := by
  unfold countCompletion
  rw [if_neg (by simpa using h)]

/-- Settles O28: the announcement, and the two cases of the timer. -/
theorem completionsAreCoalesced : Obligations.CompletionsAreCoalesced := by
  unfold Obligations.CompletionsAreCoalesced
  intro s
  refine ⟨countCompletion_announces (.inl rfl), fun h => countCompletion_announces (.inr h), fun h hpos => ?_, fun h h0 => ?_⟩
  · rw [countCompletion_counts h, Ntc.timerAfter, if_neg hpos.ne']
  · rw [countCompletion_counts h, Ntc.timerAfter, if_pos h0, h0]

/-- Counting a completion depends on the counters alone. -/
theorem countCompletion_ntc {s t : State} (h : s.ntc = t.ntc) (p : Bool) : (countCompletion p s).ntc = (countCompletion p t).ntc := by
  unfold countCompletion
  rw [h]
  split
  · simp only [announce, setEvent, h]
  · rfl

theorem buf_setBuf (b c : BufId) (x : Buffer) (s : State) : (setBuf c x s).buf b = if b = c then x else s.buf b := by
  cases b <;> cases c <;> rfl

/-- The released buffer is empty (R34), and the other one stands. -/
theorem buf_releaseBuffer (n : Fin 8) (b : BufId) (s : State) :
    (releaseBuffer n s).buf b = if s.bufOf n = some b then .empty else s.buf b := by
  have howner (u : State) :
      (if u.dp.owner = some n then { u with dp := { u.dp with owner := none } } else u : State).buf b = u.buf b := by
    split
    · cases b <;> rfl
    · rfl
  unfold releaseBuffer
  dsimp only
  rw [howner]
  cases hb : s.bufOf n with
  | none => rfl
  | some c =>
    dsimp only
    rw [buf_setBuf]
    simp only [Option.some.injEq, eq_comm]

/-- Settles O27: `completeSlot` counts one completion in the state that `recorded` leaves. -/
theorem completionLeavesOneRecord : Obligations.CompletionLeavesOneRecord := by
  unfold Obligations.CompletionLeavesOneRecord
  intro n st k s
  have hcsq : (completeSlot n st k s).csq = (recorded n st k s).csq := by rw [completeSlot_eq, countCompletion_frame]
  have hdp : (completeSlot n st k s).dp = (releaseBuffer n s).dp := by
    rw [completeSlot_eq, countCompletion_frame]
    rfl
  have hslot (m : Fin 8) : (completeSlot n st k s).slot m = (recorded n st k s).slot m := by
    unfold State.slot
    rw [hcsq]
  have hbuf (b : BufId) : (completeSlot n st k s).buf b = (releaseBuffer n s).buf b := by
    cases b
    · exact congrArg DataPort.tb0 hdp
    · exact congrArg DataPort.tb1 hdp
  have hframe {u : State} (hu : ∃ c d t, u = { s with csq := c, dp := d, ntc := t }) :
      u = { s with csq := u.csq, dp := u.dp, ntc := u.ntc } := by
    obtain ⟨c, d, t, rfl⟩ := hu
    rfl
  refine ⟨hframe ⟨_, _, _, completeSlot_frame n st k s⟩, by rw [hcsq]; rfl, by rw [hcsq]; rfl, ?_, fun m hm => ?_, ?_, ?_, ?_,
    fun b hb => ?_, fun b hb => ?_, ?_⟩
  · rw [hslot]
    exact slot_setSlot_self _ _ _
  · rw [hslot]
    exact slot_setSlot_ne _ _ hm
  · rw [hcsq]
    rfl
  · have hprompt : (st != .ok || (s.slot n).desc.urgent) = decide (st ≠ .ok ∨ (s.slot n).desc.urgent = true) := by
      rw [Bool.eq_iff_iff]
      simp
    rw [completeSlot_eq, hprompt]
    exact countCompletion_ntc (s := recorded n st k s) (t := s) rfl _
  · rw [hcsq]
    rfl
  · rw [hbuf, buf_releaseBuffer, if_pos hb]
    rfl
  · rw [hbuf, buf_releaseBuffer, if_neg hb]
  · rw [hdp]
    exact releaseBuffer_owner n s

end Sys2Proof.Machine
end

section
/-! The register words: a word made of fields that keep apart shows them, and what each register shows (R183, Table 12-1). -/

namespace Sys2Proof.Machine

/-! ### Words of fields -/

/-- Fields, each its lowest bit and its length, that lie within a word and keep apart. -/
def placedApart (ps : List (Nat × Nat)) : Bool :=
  decide ((∀ p ∈ ps, p.1 + p.2 ≤ 32) ∧ ps.Pairwise fun p q => p.1 + p.2 ≤ q.1 ∨ q.1 + q.2 ≤ p.1)

theorem shows_layout {l : List (Nat × Nat × Nat)} {ps : List (Nat × Nat)} (hps : l.map Prod.snd = ps)
    (h : placedApart ps = true) : Shows (layout l) l := by
  subst hps
  obtain ⟨hin, hapart⟩ := of_decide_eq_true h
  rw [List.pairwise_map] at hapart
  refine layout_shows l (fun f hf => hin _ (List.mem_map_of_mem hf)) fun f hf g hg => ?_
  by_cases hfg : f = g
  · exact .inl hfg
  · have hsymm : Std.Symm fun f g : Nat × Nat × Nat => f.2.1 + f.2.2 ≤ g.2.1 ∨ g.2.1 + g.2.2 ≤ f.2.1 :=
      ⟨fun _ _ => Or.symm⟩
    exact .inr (hapart.forall hf hg hfg)

/-- A field shows a value that fits it. -/
theorem Shows.field_eq {w : Word} {l : List (Nat × Nat × Nat)} (h : Shows w l) {v lo len : Nat} (hf : (v, lo, len) ∈ l)
    (hv : v < 2 ^ len) : field w lo len = v := by
  rw [h.1 _ hf]
  exact Nat.mod_eq_of_lt hv

theorem getLsbD_eq_testBit_field (w : Word) (i : Nat) : w.getLsbD i = (field w i 1).testBit 0 := by
  simp [field, BitVec.testBit_toNat]

/-- A field of one bit shows it. -/
theorem Shows.getLsbD_eq {w : Word} {l : List (Nat × Nat × Nat)} (h : Shows w l) {b : Bool} {lo : Nat} (hf : (bit b, lo, 1) ∈ l) :
    w.getLsbD lo = b := by
  rw [getLsbD_eq_testBit_field, h.field_eq hf (by cases b <;> decide)]
  cases b <;> rfl

/-- A field that shows 0 is like no field. -/
theorem Shows.of_zero_field {w : Word} {l : List (Nat × Nat × Nat)} {lo len : Nat} (h : Shows w ((0, lo, len) :: l)) :
    Shows w l := by
  refine ⟨fun f hf => h.1 f (List.mem_cons_of_mem _ hf), fun i hi => ?_⟩
  by_cases hin : i < lo ∨ lo + len ≤ i
  · exact h.2 i (List.forall_mem_cons.2 ⟨hin, hi⟩)
  · have hzero : field w lo len = 0 := (h.1 _ List.mem_cons_self).trans (Nat.zero_mod _)
    have hbit : (field w lo len).testBit (i - lo) = w.getLsbD i := by
      rw [field, BitVec.testBit_toNat, BitVec.getLsbD_extractLsb']
      have h1 : i - lo < len := by omega
      have h2 : lo + (i - lo) = i := by omega
      simp [h1, h2]
    rw [← hbit, hzero, Nat.zero_testBit]

/-- A register of `n` bits shows its value in bits `n - 1` to 0. -/
theorem shows_setWidth {n : Nat} (x : BitVec n) (hn : n ≤ 32) : Shows (x.setWidth 32) [(x.toNat, 0, n)] := by
  constructor
  · simp only [List.mem_singleton, forall_eq]
    have hx : x.toNat < 2 ^ n := x.isLt
    have h32 : (2 : Nat) ^ n ≤ 2 ^ 32 := Nat.pow_le_pow_right (by decide) hn
    rw [field_eq_div_mod, BitVec.toNat_setWidth, pow_zero, Nat.div_one, Nat.mod_eq_of_lt (lt_of_lt_of_le hx h32)]
  · simp only [List.mem_singleton, forall_eq, not_lt_zero, zero_add, false_or]
    intro i hi
    rw [BitVec.getLsbD_setWidth, BitVec.getLsbD_of_ge x i hi, Bool.and_false]

/-! ### Codes -/

theorem ResetKind.code_eq (k : ResetKind) :
    k.code = ([.por, .pin, .port, .controller, .collision] : List ResetKind).idxOf k + 1 := by cases k <;> rfl

theorem RejectReason.code_eq (r : RejectReason) :
    r.code = ([.badSlot, .slotBusy, .badCommand, .badFlags, .badToken, .badCount, .badRange, .badRegisterValue, .strayData,
      .badFrame] : List RejectReason).idxOf r + 1 := by cases r <;> rfl

theorem BreakCause.code_eq (c : BreakCause) :
    c.code = ([.evicted, .write, .trim, .discard, .erase, .fault, .sleep, .media] : List BreakCause).idxOf c + 1 := by
  cases c <;> rfl

theorem Cmd.code_eq (c : Cmd) :
    c.code = ([.read, .write, .trim, .prefetch, .clean, .purge, .discard, .flush, .sync, .describe, .health, .sleep,
      .eraseAll] : List Cmd).idxOf c + 1 := by cases c <;> rfl

theorem Status.code_eq (st : Status) :
    st.code = ([.ok, .aborted, .condFail, .writeProtected, .unreadable, .bufferError] : List Status).idxOf st := by
  cases st <;> rfl

theorem SlotState.code_eq (x : SlotState) :
    x.code = ([.free, .queued, .loading, .loaded, .applying, .settling, .unloading, .done] : List SlotState).idxOf x := by
  cases x <;> rfl

theorem StartKind.serializing_eq (k : StartKind) :
    k.serializing = decide (k ∈ ([.writeThrough, .writeAtomic, .sleep, .eraseAll] : List StartKind)) := by cases k <;> rfl

/-- Reclaim's field of MEDIA_STATUS (R123, R136). -/
theorem reclaimPriority_code (s : State) :
    s.reclaimPriority.code =
      if s.freeCount < 3 then 2 else if s.mm.reclaimFill = true ∨ s.groupsIn .retiring ≠ [] then 1 else 0 := by
  have hthree : Config.reclaimForeground = 3 := rfl
  unfold State.reclaimPriority
  rw [hthree]
  by_cases hfree : s.freeCount < 3
  · simp [hfree, ReclaimPriority.code]
  · by_cases hfill : s.mm.reclaimFill = true ∨ s.groupsIn .retiring ≠ []
    · have hfill' : (s.mm.reclaimFill || !(s.groupsIn .retiring).isEmpty) = true := by simpa using hfill
      rw [if_neg hfree, if_neg hfree, if_pos hfill, if_pos hfill']
      rfl
    · have hfill' : ¬(s.mm.reclaimFill || !(s.groupsIn .retiring).isEmpty) = true := by simpa using hfill
      rw [if_neg hfree, if_neg hfree, if_neg hfill, if_neg hfill']
      rfl

/-! ### The views -/

section Views

variable (s : State)

theorem deviceState_shows : Shows s.deviceState
    [(s.pwr.state.code, 0, 3), (bit s.frozen, 3, 1), (bit s.mm.readOnly, 4, 1), (bit s.notifyLow, 5, 1),
      (bit s.alertLow, 6, 1), (s.csq.completions.length, 8, 4), (bit (s.ntc.pendingEvent .reject), 16, 1)] :=
  shows_layout rfl rfl

theorem evLevel_shows : Shows (s.readReg .evLevel) ((List.range 9).map fun i => (s.ntc.levelOf i, 3 * i, 3)) := by
  constructor
  · simp only [List.forall_mem_map, List.mem_range]
    intro i hi
    apply Nat.eq_of_testBit_eq
    intro j
    have hreg : s.readReg .evLevel = s.ntc.evLevel.setWidth 32 := rfl
    rw [hreg, field, Ntc.levelOf, Nat.testBit_mod_two_pow, BitVec.testBit_toNat, BitVec.testBit_toNat,
      BitVec.getLsbD_extractLsb', BitVec.getLsbD_extractLsb', BitVec.getLsbD_setWidth]
    by_cases hj : j < 3
    · have h32 : 3 * i + j < 32 := by omega
      simp [hj, h32]
    · simp [hj]
  · intro i hi
    have hreg : s.readReg .evLevel = s.ntc.evLevel.setWidth 32 := rfl
    have h27 : 27 ≤ i := by
      by_contra hlt
      have hlast := hi (s.ntc.levelOf (i / 3), 3 * (i / 3), 3)
        (List.mem_map.2 ⟨i / 3, List.mem_range.2 (by omega), rfl⟩)
      dsimp only at hlast
      omega
    rw [hreg, BitVec.getLsbD_setWidth, BitVec.getLsbD_of_ge _ i h27, Bool.and_false]

theorem resetCause_shows : Shows s.resetCause ((s.rst.cause.code, 0, 3) :: collisionFields s.rst.collision) := by
  unfold State.resetCause
  cases s.rst.collision with
  | none => exact shows_layout rfl rfl
  | some c => exact shows_layout rfl rfl

theorem slotStates_shows :
    Shows s.slotStates ((List.finRange 8).map fun n => ((s.slot n).state.code, 4 * n.val, 4)) := by
  refine shows_layout (ps := (List.finRange 8).map fun n => (4 * n.val, 4)) ?_ (by decide)
  rw [List.map_map]
  rfl

theorem runOrder_shows (h : s.csq.runQueue.length ≤ 8) :
    Shows s.runOrder (s.csq.runQueue.zipIdx.map fun p => (8 + p.1.val, 4 * p.2, 4)) := by
  have hplace : ∀ (l : List (Fin 8)) (k : Nat), k + l.length ≤ 8 →
      placedApart ((l.zipIdx k).map fun p => (4 * p.2, 4)) = true ∧ ∀ p ∈ (l.zipIdx k).map fun p => (4 * p.2, 4), 4 * k ≤ p.1 := by
    intro l
    induction l with
    | nil => exact fun k _ => ⟨rfl, by simp⟩
    | cons n l ih =>
      intro k hk
      rw [List.length_cons] at hk
      obtain ⟨hpl, hge⟩ := ih (k + 1) (by omega)
      obtain ⟨hin, hapart⟩ := of_decide_eq_true hpl
      rw [List.zipIdx_cons, List.map_cons]
      refine ⟨decide_eq_true ⟨List.forall_mem_cons.2 ⟨?_, hin⟩, List.pairwise_cons.2 ⟨fun p hp => .inl ?_, hapart⟩⟩,
        List.forall_mem_cons.2 ⟨le_refl _, fun p hp => ?_⟩⟩
      · dsimp only
        omega
      · have := hge p hp
        dsimp only
        omega
      · have := hge p hp
        omega
  refine shows_layout (ps := s.csq.runQueue.zipIdx.map fun p => (4 * p.2, 4)) ?_ (hplace _ 0 (by omega)).1
  rw [List.map_map]
  rfl

end Views

/-! ### STATE POLL -/

/-- Settles O18: the two branches of `pollWord`, and the fields of DEVICE_STATE. -/
theorem statePollDrivesDeviceState : Obligations.StatePollDrivesDeviceState := by
  unfold Obligations.StatePollDrivesDeviceState
  intro s hrest
  have hexec : exec .statePoll s = .next (pollWord s) := by
    change Host.Outcome.next (pollWord (caughtUp s)) = _
    rw [caughtUp_atRest hrest]
  have hshows := deviceState_shows s
  refine ⟨fun hdue => ?_, fun hframe hphase hwords => ?_, fun hlen => ⟨?_, ?_, ?_, ?_, ?_, ?_, ?_⟩⟩
  · rw [hexec, pollWord, if_pos hdue]
    rfl
  · have hnot : ¬s.hpi.wordDue .statePoll = true := by simp [Hpi.wordDue, hwords]
    have hpast : s.hpi.pastLast .statePoll = true := by simp [Hpi.pastLast, hframe, hphase, hwords]
    rw [hexec, pollWord, if_neg hnot, if_pos hpast]
    rfl
  · exact hshows.field_eq (by simp) (by cases s.pwr.state <;> decide)
  · exact hshows.getLsbD_eq (by simp)
  · exact hshows.getLsbD_eq (by simp)
  · exact hshows.getLsbD_eq (by simp)
  · exact hshows.getLsbD_eq (by simp)
  · exact hshows.field_eq (by simp) (by omega)
  · exact hshows.getLsbD_eq (b := s.ntc.pendingEvent .reject) (by simp)

end Sys2Proof.Machine
end

section
/-! The capture of read words: registers (O19), the head snapshot (O20), the data window (O22), RESET_HELD (O23). -/

namespace Sys2Proof.Machine

variable {s : State}

/-! ### The capture -/

theorem exec_readWordCapture (h : s.AtRest) (bad : Bool) :
    exec (.readWordCapture bad) s = .next (endUnit (captureOp bad s)) := by
  change Host.Outcome.next (endUnit (captureOp bad (caughtUp s))) = _
  rw [caughtUp_atRest h]

theorem captureOp_owes (h : s.hpi.owes = true) (bad : Bool) : captureOp bad s = s := by
  unfold captureOp
  rw [if_pos h]

theorem captureOp_past {bad : Bool} (howes : s.hpi.owes = false) (hframe : s.hpi.frame = some .readBurst)
    (hphase : s.hpi.phase = .data) (hwords : s.hpi.wordsDue = 0) : captureOp bad s = clockPast s := by
  have hnot : ¬s.hpi.wordDue .readBurst = true := by simp [Hpi.wordDue, hwords]
  have hpast : s.hpi.pastLast .readBurst = true := by simp [Hpi.pastLast, hframe, hphase, hwords]
  unfold captureOp
  rw [if_neg (by simp [howes]), if_neg hnot, if_pos hpast]

/-- A word that is due and finds no bad buffer word is captured after the snapshot, if it takes one. -/
theorem captureOp_good {bad : Bool} (hdue : s.hpi.wordDue .readBurst = true) (howes : s.hpi.owes = false)
    (hgood : s.badCapture bad = none) : captureOp bad s = captureWord (takeSnapshot s) := by
  unfold captureOp
  rw [if_neg (by simp [howes]), if_pos hdue, hgood]

/-- No buffer is checked in RESET_HELD or outside DATA_PORT. -/
theorem badCapture_eq_none {bad : Bool} (h : s.held = true ∨ isDataPortAddr s.hpi.nextAddr = false) :
    s.badCapture bad = none := by
  unfold State.badCapture
  rw [if_neg]
  rcases h with h | h <;> simp [h]

/-- The snapshot is the first word's alone. -/
theorem takeSnapshot_of_other (h : s.held = true ∨ ¬(s.hpi.phase = .header ∧ s.hpi.nextAddr = 0x10)) : takeSnapshot s = s := by
  unfold takeSnapshot
  rw [if_neg]
  rcases h with h | h
  · simp [h]
  · simp only [Bool.and_eq_true, decide_eq_true_eq, beq_iff_eq]
    exact fun hc => h hc.1

/-- The state in which a word with a value and an effect has been captured. -/
def captured (v : Word) (e : ReadEffect) (s : State) : State :=
  { s with hpi := { s.hpi with
      phase := .data, nextAddr := s.hpi.nextAddr + 1, wordsDue := s.hpi.wordsDue - 1
      captured := some { addr := s.hpi.nextAddr, value := v, effect := e }, sdo := .bits v } }

/-- A word that no snapshot serves takes what `captureOf` gives. -/
theorem captureWord_unserved {v : Word} {e : ReadEffect} (hsnap : s.hpi.snapshotWord s.hpi.nextAddr = none)
    (hc : s.captureOf s.hpi.nextAddr = { value := v, effect := e }) : captureWord s = captured v e s := by
  unfold captureWord
  dsimp only
  rw [hsnap, hc]
  rfl

/-- A word that the snapshot serves takes the snapshot's word. -/
theorem captureWord_served {v : Word} (hsnap : s.hpi.snapshotWord s.hpi.nextAddr = some v) :
    captureWord s = captured v .nothing s := by
  unfold captureWord
  dsimp only
  rw [hsnap]
  rfl

theorem snapshotWord_eq_none {h : Hpi} {a : WordAddr} (hs : h.snapshot = none ∨ ∀ n, regOf a ≠ some (.ch n)) :
    h.snapshotWord a = none := by
  unfold Hpi.snapshotWord
  split
  · next w n hw hr =>
    rcases hs with hs | hs
    · rw [hs] at hw
      cases hw
    · exact absurd hr (hs n)
  · rfl

theorem isDataPortAddr_eq_false {a : WordAddr} (h : regOf a ≠ some .dataPort) : isDataPortAddr a = false := by
  by_contra hd
  rw [Bool.not_eq_false] at hd
  exact h (by unfold regOf; rw [if_pos hd])

theorem captureOf_plain {a : WordAddr} (hheld : s.held = false) (hd : regOf a ≠ some .dataPort) (hc : regOf a ≠ some .claim) :
    s.captureOf a = { value := s.readAddr a, effect := .nothing } := by
  unfold State.captureOf
  rw [if_neg (by simp [hheld])]
  split
  · next h => exact absurd h hc
  · next h => exact absurd h hd
  · rfl

/-! ### What the registers return -/

theorem shows_cacheStatus (s : State) : Shows s.cacheStatus
    [(s.validLines, 0, 6), (s.dirtyCount, 8, 6), (s.fc.dirtyList.length, 16, 6), (bit s.fc.ticket.isSome, 24, 1),
      (bit s.fc.draining, 25, 1), (bit s.wbeRuns, 26, 1)] := shows_layout rfl rfl

theorem shows_mediaStatus (h : s.mount = none) : Shows s.mediaStatus
    [(s.freeCount, 0, 12), (s.reserve, 12, 9), (bit s.mm.readOnly, 21, 1),
      (if s.freeCount < 3 then 2 else if s.mm.reclaimFill = true ∨ s.groupsIn .retiring ≠ [] then 1 else 0, 22, 2),
      (s.mm.relocQueue.length, 24, 5)] := by
  unfold State.mediaStatus
  rw [if_neg (by simp [h]), reclaimPriority_code]
  exact shows_layout rfl rfl

/-- Settles O19. -/
theorem captureTakesRegisterValue : Obligations.CaptureTakesRegisterValue := by
  unfold Obligations.CaptureTakesRegisterValue
  refine ⟨fun s bad hrest => ⟨fun howes => ?_, fun howes hframe hphase hwords => ?_,
    fun howes hdue hheld hd hc hsnap hfirst => ?_⟩, ?_, fun s => ?_⟩
  · rw [exec_readWordCapture hrest, captureOp_owes howes]
  · rw [exec_readWordCapture hrest, captureOp_past howes hframe hphase hwords]
    rfl
  · rw [exec_readWordCapture hrest, captureOp_good hdue howes (badCapture_eq_none (.inr (isDataPortAddr_eq_false hd))),
      takeSnapshot_of_other (.inr hfirst), captureWord_unserved (snapshotWord_eq_none hsnap) (captureOf_plain hheld hd hc)]
    rfl
  · intro p hp
    have hreg : regOf p.1 = some p.2 := by
      revert p
      decide
    exact ⟨hreg, fun s => by rw [State.readAddr, hreg]⟩
  · dsimp only
    rw [← ResetKind.code_eq]
    refine ⟨rfl, shows_layout rfl rfl, shows_layout rfl rfl, fun hcol => ?_, fun higher arriving hcol => ?_, fun hr => ?_,
      fun r hr => ?_, ?_, shows_setWidth _ (by decide), shows_setWidth _ (by decide), evLevel_shows s, shows_layout rfl rfl,
      shows_layout rfl rfl, shows_layout rfl rfl, shows_setWidth _ (by decide), shows_layout rfl rfl, shows_layout rfl rfl,
      shows_cacheStatus s, shows_setWidth _ (by decide), fun n hn => ?_, fun n r hn => ?_, fun hl => ?_, fun l hl => ?_,
      fun hm => ?_, fun hm => shows_mediaStatus hm⟩
    · have hshows := resetCause_shows s
      rwa [hcol] at hshows
    · have hshows := resetCause_shows s
      rwa [hcol] at hshows
    · have hword : s.readReg .rejectLog = layout ((0, 0, 4) :: [(s.hpi.log.count, 8, 8),
          (s.hpi.log.cmdCode.toNat, 16, 8), (s.hpi.log.target.toNat, 24, 8)]) := by
        change s.hpi.log.word = _
        rw [RejectLog.word, hr]
      rw [hword]
      exact (shows_layout rfl rfl).of_zero_field
    · change Shows s.hpi.log.word _
      rw [RejectLog.word, hr, ← RejectReason.code_eq]
      exact shows_layout rfl rfl
    · simp only [List.forall_mem_cons]
      exact ⟨rfl, rfl, rfl, rfl, nofun⟩
    · change s.rsvView n = 0
      rw [State.rsvView, hn]
    · change Shows (s.rsvView n) _
      rw [State.rsvView, hn]
      exact shows_layout rfl rfl
    · change s.rsvLost = 0
      rw [State.rsvLost, hl]
    · change Shows s.rsvLost _
      rw [State.rsvLost, hl, ← BreakCause.code_eq]
      exact shows_layout rfl rfl
    · change s.mediaStatus = 0
      rw [State.mediaStatus, if_pos (Option.isSome_iff_ne_none.2 hm)]

end Sys2Proof.Machine
end

section
/-! The head snapshot (O20), the data window (O22), RESET_HELD (O23) and the reject log (O24). -/

namespace Sys2Proof.Machine

variable {s : State}

/-! ### The head snapshot -/

theorem halted_eq (s : State) : s.halted =
    decide (s.frozen = true ∨ s.mount.isSome = true ∨ s.pwr.state ∈ ([.doze, .sleep, .waking] : List PowerState)) := by
  rw [Bool.eq_iff_iff]
  simp [State.halted, or_assoc]

theorem shows_cqStatus_idle (h : s.csq.apply = none) : Shows s.cqStatus
    [(s.csq.completions.length, 0, 4), (s.freeSlots, 4, 4), (bit s.halted, 13, 1)] := by
  unfold State.cqStatus State.applyFields
  rw [h]
  exact shows_layout rfl rfl

theorem shows_cqStatus_applying {a : Apply} (h : s.csq.apply = some a) : Shows s.cqStatus
    ([(s.csq.completions.length, 0, 4), (s.freeSlots, 4, 4), (bit s.halted, 13, 1)] ++ [(1, 8, 1), (a.slot.val, 9, 3),
      (bit a.kind.serializing, 12, 1)]) := by
  unfold State.cqStatus State.applyFields
  rw [h]
  exact shows_layout rfl rfl

theorem regOf_ch (n : Fin 4) : regOf (BitVec.ofNat 16 (0x10 + n.val)) = some (.ch n) := by
  revert n
  decide

theorem captureOp_head {bad : Bool} (hdue : s.hpi.wordDue .readBurst = true) (howes : s.hpi.owes = false)
    (hheld : s.held = false) (hphase : s.hpi.phase = .header) (hnext : s.hpi.nextAddr = 0x10) :
    captureOp bad s = captured s.headWords.ch0 .nothing { s with hpi := { s.hpi with snapshot := some s.headWords } } := by
  have hsnap : takeSnapshot s = { s with hpi := { s.hpi with snapshot := some s.headWords } } := by
    simp [takeSnapshot, hphase, hnext, hheld]
  rw [captureOp_good hdue howes (badCapture_eq_none (.inr (by rw [hnext]; rfl))), hsnap]
  refine captureWord_served ?_
  change Hpi.snapshotWord _ s.hpi.nextAddr = _
  rw [hnext]
  rfl

/-- Settles O20. -/
theorem headSnapshotIsServed : Obligations.HeadSnapshotIsServed := by
  unfold Obligations.HeadSnapshotIsServed
  refine ⟨fun s bad hrest hdue howes hheld => ⟨fun hphase hnext => ?_, fun h n hphase hsnap hnext => ?_⟩, fun s => ?_⟩
  · rw [exec_readWordCapture hrest, captureOp_head hdue howes hheld hphase hnext]
    simp only [captured, hnext]
    rfl
  · have hreg : regOf s.hpi.nextAddr = some (.ch n) := hnext ▸ regOf_ch n
    have hserved : s.hpi.snapshotWord s.hpi.nextAddr = some (h.word n) := by
      unfold Hpi.snapshotWord
      rw [hsnap, hreg]
    rw [exec_readWordCapture hrest, captureOp_good hdue howes
      (badCapture_eq_none (.inr (isDataPortAddr_eq_false (by simp [hreg])))),
      takeSnapshot_of_other (.inr (by simp [hphase])), captureWord_served hserved, captured]
    dsimp only
    rw [hphase]
  · dsimp only
    refine ⟨fun n => ?_, fun hnone n => ?_, fun c rest hc => ?_, ?_, runOrder_shows s, fun ha => ?_, fun a ha => ?_,
      fun ho => ?_, fun n ho => ?_⟩
    · match n with
      | 0 => rfl
      | 1 => rfl
      | 2 => rfl
      | 3 => rfl
    · change s.headWords.word n = 0
      rw [State.headWords, hnone]
      match n with
      | 0 => rfl
      | 1 => rfl
      | 2 => rfl
      | 3 => rfl
    · have hhead : s.headWords = c.words := by rw [State.headWords, hc]
      have hread (n : Fin 4) : s.readReg (.ch n) = c.words.word n := congrArg (HeadWords.word · n) hhead
      rw [hread, hread, hread, hread, ← Cmd.code_eq, ← Status.code_eq]
      exact ⟨shows_layout rfl rfl, shows_layout rfl rfl, rfl, rfl⟩
    · simp only [← SlotState.code_eq]
      exact slotStates_shows s
    · rw [← halted_eq]
      exact shows_cqStatus_idle ha
    · rw [← halted_eq, ← StartKind.serializing_eq]
      exact shows_cqStatus_applying ha
    · change s.dataOwner = 0
      rw [State.dataOwner, ho]
    · change Shows s.dataOwner _
      rw [State.dataOwner, ho]
      exact shows_layout rfl rfl

/-! ### The data window -/

theorem regOf_dataPort_iff (a : WordAddr) : regOf a = some .dataPort ↔ isDataPortAddr a = true := by
  refine ⟨fun h => ?_, fun h => by unfold regOf; rw [if_pos h]⟩
  by_contra hd
  unfold regOf at h
  rw [if_neg hd] at h
  have hmem : (a.toNat, Reg.dataPort) ∈ regTable := (sparseGet_eq_some (by decide)).1 h
  have hkey : ∀ p ∈ regTable, p.2 = .dataPort → p.1 = 0x19 := by decide
  have ha : a = 0x19 := BitVec.eq_of_toNat_eq (hkey _ hmem rfl)
  exact hd (by rw [ha]; rfl)

theorem isDataPortAddr_iff (a : WordAddr) : isDataPortAddr a = true ↔ a = 0x19 ∨ (0x100 ≤ a.toNat ∧ a.toNat ≤ 0x1FF) := by
  have hfalse := isDataPortAddr_eq_false_iff a
  rw [← Bool.not_eq_true] at hfalse
  have hval : a = 0x19 ↔ a.toNat = 0x19 := ⟨fun h => by rw [h]; rfl, fun h => BitVec.eq_of_toNat_eq h⟩
  rw [hval]
  constructor
  · intro h
    by_contra hne
    exact hfalse.2 (by omega) h
  · intro h
    by_contra hne
    have := hfalse.1 hne
    omega

theorem captureOf_dataPort {a : WordAddr} (h : regOf a = some .dataPort) (s : State) :
    s.captureOf a = if s.held then { value := 0, effect := .nothing } else s.captureData := by
  have hne : (a == 0x01 || a == 0x02) = false := by
    rw [Bool.or_eq_false_iff, beq_eq_false_iff_ne, beq_eq_false_iff_ne]
    constructor
    · rintro rfl
      cases h
    · rintro rfl
      cases h
  unfold State.captureOf
  simp only [hne, h]
  rfl

/-- Settles O22: the addresses of `isDataPortAddr`, at each of which the register is the same. -/
theorem dataWindowIsDataPort : Obligations.DataWindowIsDataPort := by
  unfold Obligations.DataWindowIsDataPort
  intro a
  refine ⟨by rw [regOf_dataPort_iff, isDataPortAddr_iff], fun h s w => ⟨?_, ?_, fun _ => ?_⟩⟩
  · unfold writeAddr
    rw [h]
    rfl
  · rw [captureOf_dataPort h, captureOf_dataPort (a := 0x19) rfl]
  · have hwrite : writeAddr a w = dataWrite w := by
      funext u
      unfold writeAddr
      rw [h]
      rfl
    change Host.Outcome.next (writeAt a (writeAddr a w) (caughtUp s))
      = .next (if isDataPortAddr a then writeAt a (dataWrite w) (caughtUp s) else caughtUp s)
    rw [if_pos ((regOf_dataPort_iff a).1 h), hwrite]

/-! ### RESET_HELD -/

/-- A row that is a write word acts through the port at its address. -/
theorem exec_writeRow {c : Instr} {a : WordAddr} (h : c.writeRow = some a) (s : State) :
    ∃ f, exec c s = .next (writeAt a f (caughtUp s)) := by
  cases c
  case dataPortWrite b w =>
    unfold Instr.writeRow at h
    dsimp only at h
    split at h
    · next hb =>
      cases h
      refine ⟨dataWrite w, ?_⟩
      change Host.Outcome.next (if isDataPortAddr a then _ else _) = _
      rw [if_pos hb]
    · cases h
  all_goals cases h
  all_goals exact ⟨_, rfl⟩

theorem writeAt_held {a : WordAddr} (f : State → State) (hheld : s.held = true) (ha : a ≠ 0x02)
    (h : s.hpi.acceptsWrite a = true) : writeAt a f s = endUnit s.counted := by
  have hcond : (State.held { s with hpi := s.hpi.advance } && a != 0x02) = true := by
    rw [Bool.and_eq_true]
    exact ⟨hheld, bne_iff_ne.2 ha⟩
  unfold writeAt
  rw [if_pos h]
  dsimp only
  rw [if_pos hcond]
  rfl

/-- Settles O23. -/
theorem resetHeldServesTwoRegisters : Obligations.ResetHeldServesTwoRegisters := by
  unfold Obligations.ResetHeldServesTwoRegisters
  refine fun s hrest => ⟨fun bad hheld hdue howes hsnap => ?_, fun c a hc ha hheld hacc => ?_, fun c a hc hacc => ?_⟩
  · have hport : s.rst.portReset = true := hheld
    have hcap : s.captureOf s.hpi.nextAddr =
        { value := if s.hpi.nextAddr = 0x01 then s.deviceState else if s.hpi.nextAddr = 0x02 then 1 else 0
          effect := .nothing } := by
      unfold State.captureOf
      rw [if_pos hheld]
      congr 1
      by_cases h1 : s.hpi.nextAddr = 0x01
      · rw [h1]
        rfl
      · by_cases h2 : s.hpi.nextAddr = 0x02
        · rw [h2]
          change layout [(bit s.rst.portReset, 0, 1)] = 1
          rw [hport]
          rfl
        · rw [if_neg h1, if_neg h2, if_neg]
          rw [Bool.or_eq_true, beq_iff_eq, beq_iff_eq]
          exact fun h => h.elim h1 h2
    dsimp only
    rw [exec_readWordCapture hrest, captureOp_good hdue howes (badCapture_eq_none (.inl hheld)),
      takeSnapshot_of_other (.inl hheld), captureWord_unserved (snapshotWord_eq_none (.inl hsnap)) hcap]
    rfl
  · obtain ⟨f, hf⟩ := exec_writeRow hc s
    rw [hf, caughtUp_atRest hrest, writeAt_held f hheld ha hacc]
  · obtain ⟨f, hf⟩ := exec_writeRow hc s
    rw [hf, caughtUp_atRest hrest, writeAt_refused f hacc]

/-! ### Rejects -/

/-- A write word that the port serves acts on the counted state. -/
theorem unit_of_serves {a : WordAddr} (h : s.Serves a) (f : State → State) :
    (.next (writeAt a f (caughtUp s)) : Host.Outcome State Fault Refusal) = .next (endUnit (f s.counted)) := by
  rw [caughtUp_atRest h.1.1, writeAt_serves f h]

theorem clearIn_eq_false {m w : Word} (h : w &&& m ≠ 0) : clearIn m w = false := by
  rw [← Bool.not_eq_true, clearIn_iff]
  exact h

/-- Settles O24. -/
theorem rejectIsRecorded : Obligations.RejectIsRecorded := by
  unfold Obligations.RejectIsRecorded
  refine ⟨fun s w hs => ?_, fun r target code s => ⟨fun hheld => ?_, fun hheld => ?_⟩⟩
  · have hexec : exec (.rejectLogClear w) s = .next (endUnit (rejectLogOp w s.counted)) := unit_of_serves hs _
    refine ⟨fun hw => ?_, fun hw hclr => ?_, fun hw hclr => ?_⟩
    · rw [hexec, rejectLogOp, clearIn_eq_false hw]
      rfl
    · rw [hexec, rejectLogOp, (clearIn_iff _ _).2 hw, hclr]
      rfl
    · rw [hexec, rejectLogOp, (clearIn_iff _ _).2 hw, hclr]
      rfl
  · have hcount : min 255 (s.hpi.log.count + 1) = if s.hpi.log.count < 255 then s.hpi.log.count + 1 else 255 := by
      split <;> omega
    unfold reject
    rw [if_neg (by simp [hheld]), hcount]
    rfl
  · unfold reject
    rw [if_pos hheld]

end Sys2Proof.Machine
end

section
/-! The words of DATA_PORT (O25, O26) and CLAIM (O30): what a capture takes, and what its completion brings. -/

namespace Sys2Proof.Machine

variable {s : State} {n : Fin 8}

/-! ### Buffers -/

theorem bufOf_iff_holder (b : BufId) (h : s.bufOf n = some b) : (s.buf b).holder = some n := by
  unfold State.bufOf at h
  split_ifs at h with h0 h1
  · cases h
    exact h0
  · cases h
    exact h1

/-- A buffer that keeps its holder is still the slot's. -/
theorem bufOf_setBuf {x : Buffer} (b : BufId) (h : x.holder = (s.buf b).holder) : (setBuf b x s).bufOf n = s.bufOf n := by
  have h0 : (setBuf b x s).dp.tb0.holder = s.dp.tb0.holder := by
    cases b
    · exact h
    · rfl
  have h1 : (setBuf b x s).dp.tb1.holder = s.dp.tb1.holder := by
    cases b
    · rfl
    · exact h
  simp only [State.bufOf, h0, h1]

theorem wordsOf_eq {b : BufId} (h : s.bufOf n = some b) : s.wordsOf n = (s.buf b).words := by
  unfold State.wordsOf
  rw [h]

theorem consumedOf_eq {b : BufId} (h : s.bufOf n = some b) : s.consumedOf n = (s.buf b).consumed := by
  unfold State.consumedOf
  rw [h]

theorem slot_setBuf (b : BufId) (x : Buffer) (s : State) (m : Fin 8) : (setBuf b x s).slot m = s.slot m := by
  unfold State.slot
  rw [setBuf_csq]

theorem buf_setBuf_self (b : BufId) (x : Buffer) (s : State) : (setBuf b x s).buf b = x := by rw [buf_setBuf, if_pos rfl]

/-! ### The capture of DATA_PORT -/

theorem badCapture_of_not_unloading {bad : Bool} (h : ∀ n, s.dp.owner = some n → (s.slot n).state ≠ .unloading) :
    s.badCapture bad = none := by
  unfold State.badCapture
  split
  · split
    · next n hn => rw [if_neg (h n hn)]
    · rfl
  · rfl

theorem regOf_of_isDataPortAddr {a : WordAddr} (h : isDataPortAddr a = true) : regOf a = some .dataPort :=
  (regOf_dataPort_iff a).2 h

theorem takeSnapshot_dataPort (h : isDataPortAddr s.hpi.nextAddr = true) : takeSnapshot s = s :=
  takeSnapshot_of_other (.inr fun ⟨_, he⟩ => by
    rw [he] at h
    cases h)

theorem captureWord_dataPort {v : Word} {e : ReadEffect} (h : isDataPortAddr s.hpi.nextAddr = true) (hheld : s.held = false)
    (hc : s.captureData = { value := v, effect := e }) : captureWord s = captured v e s := by
  have hreg := regOf_of_isDataPortAddr h
  refine captureWord_unserved (snapshotWord_eq_none (.inr fun n => by simp [hreg])) ?_
  rw [captureOf_dataPort hreg, if_neg (by simp [hheld]), hc]

theorem captureData_stray (ho : s.dp.owner = none) : s.captureData = { value := 0, effect := .strayReject 0 } := by
  unfold State.captureData
  rw [ho]

theorem captureData_against (ho : s.dp.owner = some n) (hs : (s.slot n).state ≠ .unloading) :
    s.captureData = { value := 0, effect := .strayReject (BitVec.ofNat 8 (s.slot n).desc.cmd.code) } := by
  unfold State.captureData
  rw [ho]
  dsimp only
  rw [if_neg hs]

theorem captureData_out (ho : s.dp.owner = some n) (hs : (s.slot n).state = .unloading) :
    s.captureData = { value := (s.wordsOf n).getD (s.consumedOf n) 0, effect := .consumeWord } := by
  unfold State.captureData
  rw [ho]
  dsimp only
  rw [if_pos hs]
  rfl

/-- A captured word that owes nothing has no consumption to lose. -/
theorem dropConsumption_of_not_owes (h : s.hpi.owes = false) : dropConsumption s = s := by
  unfold dropConsumption
  split
  · next c hc =>
    rw [if_neg]
    intro he
    simp [Hpi.owes, hc, he] at h
  · rfl

theorem readBufferError_eq (howes : s.hpi.owes = false) :
    readBufferError n s = completeSlot n .bufferError (s.consumedOf n / 256) (raiseFault .f4 s) := by
  have hconsumed : (raiseFault .f4 s).consumedOf n = s.consumedOf n := by
    unfold State.consumedOf State.bufOf State.buf
    rw [raiseFault_dp]
  have hkeep : (if (raiseFault .f4 s).dp.owner = some n then dropConsumption (raiseFault .f4 s) else raiseFault .f4 s)
      = raiseFault .f4 s := by
    rw [dropConsumption_of_not_owes, ite_self]
    rw [raiseFault_frame]
    exact howes
  unfold readBufferError
  dsimp only
  rw [hkeep, hconsumed]
  rfl

theorem captureOp_bad (hdue : s.hpi.wordDue .readBurst = true) (howes : s.hpi.owes = false) (hheld : s.held = false)
    (haddr : isDataPortAddr s.hpi.nextAddr = true) (ho : s.dp.owner = some n) (hs : (s.slot n).state = .unloading) :
    captureOp true s = captureWord (readBufferError n s) := by
  have hbad : s.badCapture true = some n := by
    simp [State.badCapture, hheld, haddr, ho, hs]
  unfold captureOp
  rw [if_neg (by simp [howes]), if_pos hdue, hbad]

/-- After the phase that ended with a bad word the read is stray (R54). -/
theorem captureOp_bad_eq (hdue : s.hpi.wordDue .readBurst = true) (howes : s.hpi.owes = false) (hheld : s.held = false)
    (haddr : isDataPortAddr s.hpi.nextAddr = true) (ho : s.dp.owner = some n) (hs : (s.slot n).state = .unloading) :
    captureOp true s =
      captured 0 (.strayReject 0) (completeSlot n .bufferError (s.consumedOf n / 256) (raiseFault .f4 s)) := by
  rw [captureOp_bad hdue howes hheld haddr ho hs, readBufferError_eq howes]
  have hraise : (raiseFault .f4 s).dp = s.dp := raiseFault_dp .f4 s
  refine captureWord_dataPort ?_ ?_ (captureData_stray ?_)
  · rw [completeSlot_hpi, raiseFault_frame]
    exact haddr
  · rw [completeSlot_frame, raiseFault_frame]
    exact hheld
  · obtain ⟨-, -, -, -, -, -, -, -, -, -, howner⟩ :=
      completionLeavesOneRecord n .bufferError (s.consumedOf n / 256) (raiseFault .f4 s)
    rw [howner, hraise, ho, if_pos rfl]

/-! ### The completion of a captured word -/

theorem completeWord_selected {p : WordAddr → Bool} {c : Captured} (hc : s.hpi.captured = some c) (hp : p c.addr = true) :
    completeWord p s = endUnit (applyEffect c.effect (wordDone s)) := by
  unfold completeWord
  rw [hc]
  dsimp only
  rw [if_pos hp]

theorem bumpConsumed_eq {b : BufId} (hb : s.bufOf n = some b) :
    bumpConsumed n s = setBuf b { s.buf b with consumed := (s.buf b).consumed + 1 } s := by
  unfold bumpConsumed
  rw [hb]

theorem consumeData_eq {b : BufId} (ho : s.dp.owner = some n) (hs : (s.slot n).state = .unloading)
    (hb : s.bufOf n = some b) :
    let moved := setBuf b { s.buf b with consumed := (s.buf b).consumed + 1 } s
    consumeData s =
      if (s.buf b).words.length ≤ (s.buf b).consumed + 1 then
        completeSlot n (s.slot n).status (((s.buf b).consumed + 1) / 256) moved
      else moved := by
  intro moved
  have hbuf : moved.bufOf n = some b := (bufOf_setBuf (x := { s.buf b with consumed := (s.buf b).consumed + 1 }) b rfl).trans hb
  have hself : moved.buf b = { s.buf b with consumed := (s.buf b).consumed + 1 } := buf_setBuf_self _ _ _
  have hslot : moved.slot n = s.slot n := slot_setBuf _ _ _ _
  have hcons : moved.consumedOf n = (s.buf b).consumed + 1 := by rw [consumedOf_eq hbuf, hself]
  have hwords : moved.wordsRemaining n = (s.buf b).words.length - ((s.buf b).consumed + 1) := by
    unfold State.wordsRemaining
    rw [hslot, hs, hcons, wordsOf_eq hbuf, hself]
  unfold consumeData
  rw [ho]
  dsimp only
  rw [if_pos hs, bumpConsumed_eq hb]
  dsimp only
  change (if moved.wordsRemaining n = 0 then completeSlot n (moved.slot n).status (moved.consumedOf n / 256) moved else moved)
    = _
  rw [hwords, hslot, hcons]
  by_cases hlast : (s.buf b).words.length ≤ (s.buf b).consumed + 1
  · rw [if_pos hlast, if_pos (Nat.sub_eq_zero_of_le hlast)]
  · rw [if_neg hlast, if_neg (by omega)]

/-- Settles O25. -/
theorem dataWordIsCapturedThenConsumed : Obligations.DataWordIsCapturedThenConsumed := by
  unfold Obligations.DataWordIsCapturedThenConsumed
  refine ⟨fun s bad hrest hdue howes hheld haddr => ⟨fun ho => ?_, fun n ho hs => ?_, fun n ho hs => ?_, fun n ho hs => ?_⟩,
    fun s c hrest hc haddr => ⟨fun he => ?_, fun code he => ?_, fun n b he ho hs hb => ?_⟩⟩
  · rw [exec_readWordCapture hrest, captureOp_good hdue howes (badCapture_of_not_unloading (by simp [ho])),
      takeSnapshot_dataPort haddr, captureWord_dataPort haddr hheld (captureData_stray ho)]
    rfl
  · rw [exec_readWordCapture hrest, captureOp_good hdue howes (badCapture_of_not_unloading (by simp [ho, hs])),
      takeSnapshot_dataPort haddr, captureWord_dataPort haddr hheld (captureData_against ho hs)]
    rfl
  · have hgood : s.badCapture false = none := by simp [State.badCapture]
    rw [exec_readWordCapture hrest, captureOp_good hdue howes hgood,
      takeSnapshot_dataPort haddr, captureWord_dataPort haddr hheld (captureData_out ho hs)]
    rfl
  · have hhpi : (completeSlot n .bufferError (s.consumedOf n / 256) (raiseFault .f4 s)).hpi = s.hpi := by
      rw [completeSlot_hpi, raiseFault_frame]
    rw [exec_readWordCapture hrest, captureOp_bad_eq hdue howes hheld haddr ho hs]
    simp only [captured, hhpi]
  all_goals
    have hexec : exec .dataPortRead s = .next (endUnit (applyEffect c.effect (wordDone s))) := by
      change Host.Outcome.next (completeWord isDataPortAddr (caughtUp s)) = _
      rw [caughtUp_atRest hrest, completeWord_selected hc haddr]
  · rw [hexec]
    rcases he with he | he
    · rw [he]
      rfl
    · rw [he]
      rfl
  · rw [hexec, he]
    rfl
  · have hconsume := consumeData_eq (s := wordDone s) ho hs hb
    have hbuf : (wordDone s).buf b = s.buf b := by cases b <;> rfl
    dsimp only at hconsume ⊢
    rw [hbuf] at hconsume
    rw [hexec, he]
    refine ⟨fun hlt => ?_, fun hge => ?_⟩
    · change Host.Outcome.next (endUnit (consumeData (wordDone s))) = _
      rw [hconsume, if_neg (fun hle => absurd hlt (not_lt.2 hle))]
      rfl
    · change Host.Outcome.next (endUnit (consumeData (wordDone s))) = _
      rw [hconsume, if_pos hge]
      rfl

/-! ### Writes to DATA_PORT -/

theorem appendWord_eq {b : BufId} (hb : s.bufOf n = some b) (w : Word) :
    appendWord n w s = setBuf b { s.buf b with words := (s.buf b).words ++ [w] } s := by
  unfold appendWord
  rw [hb]

theorem storeWord_eq {b : BufId} (hs : (s.slot n).state = .loading) (hb : s.bufOf n = some b) (w : Word) :
    let stored := setBuf b { s.buf b with words := (s.buf b).words ++ [w] } s
    storeWord n w s =
      if (s.slot n).desc.count * 256 ≤ (s.buf b).words.length + 1 then
        { setSlot n { s.slot n with state := .loaded } stored with dp := { stored.dp with owner := none } }
      else stored := by
  intro stored
  have hbuf : stored.bufOf n = some b := (bufOf_setBuf (x := { s.buf b with words := (s.buf b).words ++ [w] }) b rfl).trans hb
  have hself : stored.buf b = { s.buf b with words := (s.buf b).words ++ [w] } := buf_setBuf_self _ _ _
  have hslot : stored.slot n = s.slot n := slot_setBuf _ _ _ _
  have hwords : stored.wordsRemaining n = (s.slot n).desc.count * 256 - ((s.buf b).words.length + 1) := by
    unfold State.wordsRemaining
    rw [hslot, hs, wordsOf_eq hbuf, hself]
    simp [Config.folioWords]
  unfold storeWord
  rw [appendWord_eq hb]
  dsimp only
  change (if stored.wordsRemaining n = 0 then
    ({ modSlot n (fun sl => { sl with state := .loaded }) stored with dp := { stored.dp with owner := none } } : State)
    else stored) = _
  rw [hwords, modSlot, hslot]
  by_cases hlast : (s.slot n).desc.count * 256 ≤ (s.buf b).words.length + 1
  · rw [if_pos hlast, if_pos (Nat.sub_eq_zero_of_le hlast)]
  · rw [if_neg hlast, if_neg (by omega)]

/-- Settles O26. -/
theorem dataWordIsStored : Obligations.DataWordIsStored := by
  unfold Obligations.DataWordIsStored
  intro s a w hserves haddr
  have hexec : exec (.dataPortWrite a w) s = .next (endUnit (dataWrite w s.counted)) := by
    change Host.Outcome.next (if isDataPortAddr a then _ else _) = _
    rw [if_pos haddr]
    exact unit_of_serves hserves _
  have hwrite {n : Fin 8} (ho : s.dp.owner = some n) : dataWrite w s.counted =
      if (s.slot n).state = .loading then storeWord n w s.counted
      else reject .strayData 0x19 (BitVec.ofNat 8 (s.slot n).desc.cmd.code) s.counted := by
    have hcounted : s.counted.dp.owner = some n := ho
    unfold dataWrite
    rw [hcounted]
    rfl
  refine ⟨fun ho => ?_, fun n ho hs => ?_, fun n b ho hs hb => ?_⟩
  · have hcounted : s.counted.dp.owner = none := ho
    rw [hexec, dataWrite, hcounted]
  · rw [hexec, hwrite ho, if_neg hs]
  · have hstore := storeWord_eq (s := s.counted) hs hb w
    dsimp only at hstore ⊢
    rw [hexec, hwrite ho, if_pos hs, hstore]
    refine ⟨fun hlt => ?_, fun hge => ⟨_, rfl, ?_⟩⟩
    · exact congrArg (fun u => Host.Outcome.next (endUnit u)) (if_neg (fun hle => absurd hlt (not_lt.2 hle)))
    · exact if_pos hge

/-! ### CLAIM -/

theorem claimValue_none (h : s.ntc.claimable = none) : s.claimValue = 63 := by
  unfold State.claimValue
  rw [h]

theorem captureClaim_none (h : s.ntc.claimable = none) : s.captureClaim = { value := 63, effect := .nothing } := by
  unfold State.captureClaim
  rw [h, claimValue_none h]

theorem captureClaim_full {w : Winner} (h : s.ntc.claimable = some w) (hfull : 6 ≤ s.ntc.stack.length) :
    s.captureClaim = { value := 63, effect := .raiseF1 } := by
  have hdepth : Config.stackDepth ≤ s.ntc.stack.length := hfull
  unfold State.captureClaim State.claimValue
  rw [h]
  dsimp only
  rw [if_pos hdepth, if_pos hdepth]

theorem captureClaim_room {w : Winner} (h : s.ntc.claimable = some w) (hroom : s.ntc.stack.length < 6) :
    s.captureClaim = { value := BitVec.ofNat 32 (w.code + 256 * w.level)
                       effect := .pushClaim (if s.ntc.nestOff = true ∧ w.maskable = true then 6 else w.level) } := by
  have hdepth : ¬Config.stackDepth ≤ s.ntc.stack.length := not_le.2 hroom
  have hpack : pack [(w.code, 0), (w.level, 8)] = BitVec.ofNat 32 (w.code + 256 * w.level) := by
    simp [pack, Nat.mul_comm]
  unfold State.captureClaim State.claimValue Ntc.claimLevel
  rw [h]
  dsimp only
  rw [if_neg hdepth, if_neg hdepth, hpack]
  simp only [Bool.and_eq_true]

theorem captureOp_claim {bad : Bool} {v : Word} {e : ReadEffect} (hdue : s.hpi.wordDue .readBurst = true)
    (howes : s.hpi.owes = false) (hheld : s.held = false) (hnext : s.hpi.nextAddr = 0x24)
    (hc : s.captureClaim = { value := v, effect := e }) : captureOp bad s = captured v e s := by
  rw [captureOp_good hdue howes (badCapture_eq_none (.inr (by rw [hnext]; rfl))),
    takeSnapshot_of_other (.inr (by simp [hnext]))]
  refine captureWord_unserved (snapshotWord_eq_none (.inr fun n => ?_)) ?_
  · rw [hnext]
    nofun
  · unfold State.captureOf
    rw [if_neg (by simp [hheld]), hnext, ← hc]
    rfl

/-- Settles O30. -/
theorem claimIsCapturedThenMade : Obligations.ClaimIsCapturedThenMade := by
  unfold Obligations.ClaimIsCapturedThenMade
  refine ⟨fun s bad hrest hdue howes hheld hnext => ?_, fun s c hrest hc haddr => ?_⟩
  · have hcap {v : Word} {e : ReadEffect} (h : s.captureClaim = { value := v, effect := e }) :
        exec (.readWordCapture bad) s = .next (endUnit { s with hpi := { s.hpi with
          phase := .data, nextAddr := 0x25, wordsDue := s.hpi.wordsDue - 1
          captured := some { addr := 0x24, value := v, effect := e }, sdo := .bits v } }) := by
      rw [exec_readWordCapture hrest, captureOp_claim hdue howes hheld hnext h]
      simp only [captured, hnext]
      rfl
    exact ⟨fun h => hcap (captureClaim_none h), fun w h =>
      ⟨fun hfull => hcap (captureClaim_full h hfull), fun hroom => hcap (captureClaim_room h hroom)⟩⟩
  · have hexec : exec .claim s = .next (endUnit (applyEffect c.effect (wordDone s))) := by
      change Host.Outcome.next (completeWord (fun a => a == 0x24) (caughtUp s)) = _
      rw [caughtUp_atRest hrest, completeWord_selected hc (by simp [haddr])]
    refine ⟨fun he => ?_, fun he => ?_, fun v he => ?_⟩
    · rw [hexec]
      rcases he with he | he
      · rw [he]
        rfl
      · rw [he]
        rfl
    · rw [hexec, he]
      rfl
    · rw [hexec, he]
      rfl

end Sys2Proof.Machine
end

section
/-! The Notification Controller: the winner and the pins (O29), and the writes of its registers and of the policies (O32, O33,
O34). -/

namespace Sys2Proof.Machine

variable {s : State}

/-! ### The winner -/

theorem eligible_iff (n : Ntc) (i : Nat) : n.eligible i = true ↔
    n.evPending.getLsbD i = true ∧ n.evEnable.getLsbD i = true ∧ 0 < n.levelOf i ∧ (n.quiet = 0 ∨ 4 < n.levelOf i) := by
  simp only [Ntc.eligible, Bool.and_eq_true, decide_eq_true_eq, Bool.not_eq_true', Bool.and_eq_false_iff, bne_eq_false_iff_eq,
    decide_eq_false_iff_not, not_le]
  tauto

/-- The maskable source `i` as the winner. -/
def Ntc.source (n : Ntc) (i : Nat) : Winner := { code := i, level := n.levelOf i, maskable := true }

/-- One comparison of the arbitration. -/
def Ntc.compare (n : Ntc) (best : Option Winner) (i : Nat) : Option Winner :=
  if n.eligible i && (match best with | none => true | some b => decide (b.level < n.levelOf i)) then some (n.source i)
  else best

theorem maskableWinner_eq (n : Ntc) : n.maskableWinner = (List.range 9).foldl n.compare none := rfl

/-- Of the sources below `k`, `i` is the eligible one of highest level, and of equal ones the lowest. -/
def Ntc.Best (n : Ntc) (k i : Nat) : Prop :=
  i < k ∧ n.eligible i = true ∧
    ∀ j < k, n.eligible j = true → n.levelOf j < n.levelOf i ∨ (n.levelOf j = n.levelOf i ∧ i ≤ j)

theorem best_unique {n : Ntc} {k i j : Nat} (hi : n.Best k i) (hj : n.Best k j) : i = j := by
  obtain ⟨hik, hie, hi⟩ := hi
  obtain ⟨hjk, hje, hj⟩ := hj
  have h1 := hi j hjk hje
  have h2 := hj i hik hie
  omega

/-- What the comparisons of the sources below `k` come to. -/
theorem foldl_compare (n : Ntc) (k : Nat) :
    ((List.range k).foldl n.compare none = none ∧ ∀ i < k, n.eligible i = false)
      ∨ ∃ i, (List.range k).foldl n.compare none = some (n.source i) ∧ n.Best k i := by
  induction k with
  | zero => exact .inl ⟨rfl, nofun⟩
  | succ k ih =>
    rw [List.range_succ, List.foldl_append, List.foldl_cons, List.foldl_nil]
    rcases ih with ⟨hnone, hall⟩ | ⟨i, hsome, hik, hie, hbest⟩
    · rw [hnone, Ntc.compare]
      cases hk : n.eligible k with
      | false =>
        refine .inl ⟨rfl, fun i hi => ?_⟩
        rcases Nat.lt_succ_iff_lt_or_eq.1 hi with hlt | rfl
        · exact hall i hlt
        · exact hk
      | true =>
        refine .inr ⟨k, rfl, Nat.lt_succ_self k, hk, fun j hj hje => ?_⟩
        rcases Nat.lt_succ_iff_lt_or_eq.1 hj with hlt | rfl
        · rw [hall j hlt] at hje
          cases hje
        · exact .inr ⟨rfl, le_refl _⟩
    · rw [hsome, Ntc.compare]
      by_cases hk : n.eligible k = true ∧ n.levelOf i < n.levelOf k
      · rw [if_pos (by simp [hk, Ntc.source])]
        refine .inr ⟨k, rfl, Nat.lt_succ_self k, hk.1, fun j hj hje => ?_⟩
        rcases Nat.lt_succ_iff_lt_or_eq.1 hj with hlt | rfl
        · have := hbest j hlt hje
          omega
        · exact .inr ⟨rfl, le_refl _⟩
      · have hlose : ¬(n.eligible k && decide ((n.source i).level < n.levelOf k)) = true := by
          rw [Bool.and_eq_true, decide_eq_true_eq]
          exact hk
        rw [if_neg hlose]
        refine .inr ⟨i, rfl, Nat.lt_succ_of_lt hik, hie, fun j hj hje => ?_⟩
        rcases Nat.lt_succ_iff_lt_or_eq.1 hj with hlt | rfl
        · exact hbest j hlt hje
        · have hle : n.levelOf j ≤ n.levelOf i := not_lt.1 fun hlt => hk ⟨hje, hlt⟩
          omega

theorem winner_of_no_fault {n : Ntc} (h : ∀ f, n.pendingFault f = false) : n.winner = n.maskableWinner := by
  simp [Ntc.winner, h]

/-- A pending fault is the winner if no higher one is pending. -/
theorem winner_of_fault {n : Ntc} {f : FaultCode} (hf : n.pendingFault f = true)
    (hmax : ∀ g, n.pendingFault g = true → g.level ≤ f.level) :
    n.winner = some { code := 16 + f.index, level := 7 + f.index, maskable := false } := by
  have hhigher {g : FaultCode} (hg : f.level < g.level) : n.pendingFault g = false := by
    rw [← Bool.not_eq_true]
    exact fun hp => absurd (hmax g hp) (not_le.2 hg)
  unfold Ntc.winner
  cases f with
  | f4 => rw [if_pos hf]; rfl
  | f3 => rw [hhigher (g := .f4) (by decide), hf]; rfl
  | f2 => rw [hhigher (g := .f4) (by decide), hhigher (g := .f3) (by decide), hf]; rfl
  | f1 =>
    rw [hhigher (g := .f4) (by decide), hhigher (g := .f3) (by decide), hhigher (g := .f2) (by decide), hf]
    rfl

theorem claimable_iff (n : Ntc) (w : Winner) : n.claimable = some w ↔ n.winner = some w ∧ n.level < w.level := by
  unfold Ntc.claimable
  cases hw : n.winner with
  | none => simp
  | some v =>
    dsimp only
    constructor
    · intro h
      split_ifs at h with hlevel
      cases h
      exact ⟨rfl, hlevel⟩
    · rintro ⟨h, hlevel⟩
      cases h
      rw [if_pos hlevel]

theorem outstanding_iff (n : Ntc) (f : FaultCode) :
    n.outstanding f = true ↔ n.pendingFault f = true ∨ n.level = 7 + f.index ∨ 7 + f.index ∈ n.stack := by
  simp [Ntc.outstanding, Ntc.inService, FaultCode.level]

/-- The part is frozen while a hard fault is outstanding (R161). -/
theorem frozen_iff (n : Ntc) : n.frozen = true ↔ ∃ f, f ≠ .f1 ∧ n.outstanding f = true := by
  unfold Ntc.frozen Ntc.highestHard
  constructor
  · intro h
    split_ifs at h with h4 h3 h2
    · exact ⟨.f4, nofun, h4⟩
    · exact ⟨.f3, nofun, h3⟩
    · exact ⟨.f2, nofun, h2⟩
    · cases h
  · rintro ⟨f, hf, hout⟩
    split_ifs with h4 h3 h2
    · rfl
    · rfl
    · rfl
    · cases f with
      | f1 => exact absurd rfl hf
      | f2 => exact absurd hout h2
      | f3 => exact absurd hout h3
      | f4 => exact absurd hout h4

/-- Settles O29. -/
theorem winnerIsHighestEligible : Obligations.WinnerIsHighestEligible := by
  unfold Obligations.WinnerIsHighestEligible
  refine ⟨fun n => ⟨fun i _ => eligible_iff n i, fun f hf hmax => winner_of_fault hf hmax, fun hnone => ?_,
    claimable_iff n⟩, fun s => ⟨?_, ?_, rfl⟩⟩
  · rw [winner_of_no_fault hnone, maskableWinner_eq]
    rcases foldl_compare n 9 with ⟨hres, hall⟩ | ⟨i, hres, hbest⟩
    · refine ⟨iff_of_true hres hall, fun i hi hie => ?_⟩
      rw [hall i hi] at hie
      cases hie
    · rw [hres]
      refine ⟨iff_of_false nofun fun hall => ?_, fun j hj hje hmax => ?_⟩
      · have := hall i hbest.1
        rw [hbest.2.1] at this
        cases this
      · rw [best_unique hbest ⟨hj, hje, hmax⟩]
        rfl
  · unfold State.notifyLow
    rw [Bool.and_eq_true, Option.isSome_iff_exists]
    simp only [claimable_iff]
  · change s.ntc.frozen = true ↔ _
    rw [frozen_iff]
    simp only [outstanding_iff]

/-! ### Words -/

theorem extractLsb_zero (w : Word) (n : Nat) : w.extractLsb' 0 n = w.setWidth n := by
  ext i hi
  simp [BitVec.getElem_setWidth, BitVec.getLsbD]

theorem extractLsb_eq (w : Word) (lo n : Nat) : w.extractLsb' lo n = (w >>> lo).setWidth n := by
  ext i hi
  simp [BitVec.getElem_setWidth]

theorem field_zero (w : Word) (n : Nat) : field w 0 n = w.toNat % 2 ^ n := by
  rw [field_eq_div_mod, pow_zero, Nat.div_one]

/-- A word whose bits from `n` up are reserved is legal below `2 ^ n`. -/
theorem clearIn_above_eq {m w : Word} {n : Nat} (hm : m = BitVec.allOnes 32 <<< n) :
    clearIn m w = decide (w.toNat < 2 ^ n) := by
  rw [Bool.eq_iff_iff, hm, clearIn_above, decide_eq_true_eq]

theorem exec_registerWrite {a : WordAddr} {r : Reg} (h : s.Serves a) (hr : regOf a = some r) (w : Word) :
    exec (.registerWrite a w) s = .next (endUnit (writeReg r w s.counted)) := by
  have hact : writeAddr a w s.counted = writeReg r w s.counted := by
    unfold writeAddr
    rw [hr]
  rw [← hact]
  exact unit_of_serves h _

/-! ### The registers of the Notification Controller -/

theorem legalEvLevel_iff (w : Word) :
    legalEvLevel w = true ↔ w.toNat < 2 ^ 27 ∧ ∀ i < 9, (w.extractLsb' (3 * i) 3).toNat ≤ 6 := by
  unfold legalEvLevel
  rw [Bool.and_eq_true, clearIn_above_eq (n := 27) (by decide), decide_eq_true_eq, List.all_eq_true]
  simp only [List.mem_range, decide_eq_true_eq]
  rfl

/-- Settles O32. -/
theorem notificationRegistersAreWritten : Obligations.NotificationRegistersAreWritten := by
  unfold Obligations.NotificationRegistersAreWritten
  intro s w
  have hnine : clearIn 0xFFFFFE00 w = decide (w.toNat < 512) := clearIn_above_eq (n := 9) (by decide)
  have hone : clearIn 0xFFFFFFFE w = decide (w.toNat < 2) := clearIn_above_eq (n := 1) (by decide)
  refine ⟨fun hs => ?_, fun hs => ?_, fun hs => ?_, fun hs => ?_, fun hs => ?_, fun a ha hs => ?_⟩
  · have hexec : exec (.evPendingClear w) s = .next (endUnit (evPendingWrite w s.counted)) := unit_of_serves hs _
    rw [hexec, evPendingWrite, legalEventBits, hnine, extractLsb_zero]
    refine ⟨fun hw => ?_, fun hw => ?_⟩
    · rw [decide_eq_true hw]
      rfl
    · rw [decide_eq_false (not_lt.2 hw)]
      rfl
  · rw [exec_registerWrite hs (r := .evEnable) rfl, writeReg, evEnableWrite, legalEventBits, hnine, extractLsb_zero]
    refine ⟨fun hw => ?_, fun hw => ?_⟩
    · rw [decide_eq_true hw]
      rfl
    · rw [decide_eq_false (not_lt.2 hw)]
      rfl
  · dsimp only
    rw [exec_registerWrite hs (r := .evLevel) rfl, writeReg, evLevelWrite, extractLsb_zero, ← legalEvLevel_iff]
    refine ⟨fun hw => ?_, fun hw => ?_⟩
    · rw [if_pos hw]
      rfl
    · rw [if_neg hw]
      rfl
  · have hexec : exec (.faultPendingClear w) s = .next (endUnit (faultPendingWrite w s.counted)) := unit_of_serves hs _
    rw [hexec, faultPendingWrite, legalFaultPending, extractLsb_zero]
    refine ⟨fun hw => ?_, fun hw => ?_⟩
    · rw [(clearIn_iff _ _).2 hw]
      rfl
    · rw [clearIn_eq_false hw]
      rfl
  · rw [exec_registerWrite hs (r := .ntcConfig) rfl, writeReg, ntcConfigWrite, hone]
    refine ⟨fun hw => ?_, fun hw => ?_⟩
    · rw [decide_eq_true hw]
      rfl
    · rw [decide_eq_false (not_lt.2 hw)]
      rfl
  · have hread : ∀ a ∈ ([0x00, 0x01, 0x04, 0x0E, 0x0F, 0x10, 0x11, 0x12, 0x13, 0x14, 0x18, 0x24, 0x31, 0x38, 0x39, 0x3A,
        0x3B, 0x3C, 0x3D] : List WordAddr), ∃ r, regOf a = some r ∧ ∀ w s, writeReg r w s = s := by
      simp only [List.forall_mem_cons]
      exact ⟨⟨_, rfl, fun _ _ => rfl⟩, ⟨_, rfl, fun _ _ => rfl⟩, ⟨_, rfl, fun _ _ => rfl⟩, ⟨_, rfl, fun _ _ => rfl⟩,
        ⟨_, rfl, fun _ _ => rfl⟩, ⟨_, rfl, fun _ _ => rfl⟩, ⟨_, rfl, fun _ _ => rfl⟩, ⟨_, rfl, fun _ _ => rfl⟩,
        ⟨_, rfl, fun _ _ => rfl⟩, ⟨_, rfl, fun _ _ => rfl⟩, ⟨_, rfl, fun _ _ => rfl⟩, ⟨_, rfl, fun _ _ => rfl⟩,
        ⟨_, rfl, fun _ _ => rfl⟩, ⟨_, rfl, fun _ _ => rfl⟩, ⟨_, rfl, fun _ _ => rfl⟩, ⟨_, rfl, fun _ _ => rfl⟩,
        ⟨_, rfl, fun _ _ => rfl⟩, ⟨_, rfl, fun _ _ => rfl⟩, ⟨_, rfl, fun _ _ => rfl⟩, nofun⟩
    obtain ⟨r, hr, hignored⟩ := hread a ha
    rw [exec_registerWrite hs hr, hignored]

/-- Settles O33. -/
theorem serviceQuietCoalesceAreWritten : Obligations.ServiceQuietCoalesceAreWritten := by
  unfold Obligations.ServiceQuietCoalesceAreWritten
  refine fun s w => ⟨fun hs => ?_, fun hs => ?_, fun hs => ?_⟩
  · have hexec : exec (.serviceWrite w) s = .next (endUnit (serviceOp w s.counted)) := unit_of_serves hs _
    have hlegal : s.counted.serviceLegal w = true ↔
        w &&& 0xFFFFF8F0 = 0 ∧ s.ntc.nestOff = false ∧ s.ntc.level ≤ 6 ∧ w.toNat % 16 ≤ 6 := by
      unfold State.serviceLegal
      simp only [Bool.and_eq_true, clearIn_iff, Bool.not_eq_true', decide_eq_true_eq, field_zero, and_assoc]
      rfl
    dsimp only
    rw [hexec, serviceOp, ← hlegal, field_zero]
    refine ⟨fun hw => ?_, fun hw => ?_⟩
    · rw [if_pos hw]
      rfl
    · rw [if_neg hw]
      rfl
  · have hexec : exec (.quietWrite w) s = .next (endUnit (quietOp w s.counted)) := unit_of_serves hs _
    have htwelve : clearIn 0xFFFFF000 w = decide (w.toNat < 4096) := clearIn_above_eq (n := 12) (by decide)
    have hquiet : s.counted.ntc.quiet = s.ntc.quiet := rfl
    have hval (hw : w.toNat < 4096) : (w.setWidth 12).toNat = w.toNat := by
      rw [BitVec.toNat_setWidth]
      exact Nat.mod_eq_of_lt hw
    have hzero (hw : w.toNat < 4096) : w.setWidth 12 = 0 ↔ w.toNat = 0 := by
      rw [← BitVec.toNat_inj, hval hw]
      rfl
    rw [hexec, quietOp, htwelve, extractLsb_zero, hquiet]
    refine ⟨fun hw => ?_, fun hw hnew => ?_, fun hpos hle => ?_⟩
    · rw [decide_eq_false (not_lt.2 hw)]
      rfl
    · have hcond : (w.setWidth 12 == 0 || decide (s.ntc.quiet.toNat < (w.setWidth 12).toNat)) = true := by
        rw [Bool.or_eq_true, beq_iff_eq, decide_eq_true_eq, hzero hw, hval hw]
        refine hnew.imp_left fun h0 => ?_
        rw [h0]
        rfl
      rw [decide_eq_true hw]
      dsimp only
      rw [if_neg (by decide), if_pos hcond]
      rfl
    · have hw : w.toNat < 4096 := lt_of_le_of_lt hle s.ntc.quiet.isLt
      have hcond : ¬(w.setWidth 12 == 0 || decide (s.ntc.quiet.toNat < (w.setWidth 12).toNat)) = true := by
        rw [Bool.or_eq_true, beq_iff_eq, decide_eq_true_eq, hzero hw, hval hw]
        omega
      rw [decide_eq_true hw]
      dsimp only
      rw [if_neg (by decide), if_neg hcond]
  · have hexec : exec (.coalesceWrite w) s = .next (endUnit (coalesceOp w s.counted)) := unit_of_serves hs _
    have hlegal : legalCoalesce w = true ↔ w &&& 0xFFF000F0 = 0 ∧ 1 ≤ w.toNat % 16 ∧ w.toNat % 16 ≤ 8 := by
      unfold legalCoalesce
      rw [Bool.and_eq_true, clearIn_iff, decide_eq_true_eq, field_zero]
      rfl
    dsimp only
    rw [hexec, coalesceOp, ← hlegal, extractLsb_zero, extractLsb_eq w 8 8, field_zero]
    refine ⟨fun hw => ?_, fun hw hlt => ?_, fun hw hge => ?_⟩
    · rw [if_neg hw]
      rfl
    · have hcount : ¬w.toNat % 2 ^ 4 ≤ s.ntc.unannounced := not_le.2 hlt
      rw [if_pos hw]
      exact congrArg (fun u => Host.Outcome.next (endUnit u)) (if_neg hcount)
    · have hcount : w.toNat % 2 ^ 4 ≤ s.ntc.unannounced := hge
      rw [if_pos hw]
      exact congrArg (fun u => Host.Outcome.next (endUnit u)) (if_pos hcount)

/-! ### CACHE_POLICY and DOZE_DELAY -/

/-- Settles O34. -/
theorem policyAndDelayAreWritten : Obligations.PolicyAndDelayAreWritten := by
  unfold Obligations.PolicyAndDelayAreWritten
  refine fun s w => ⟨fun hs => ?_, fun hs => ?_⟩
  · have hexec : exec (.cachePolicyWrite w) s = .next (endUnit (cachePolicyOp w s.counted)) := unit_of_serves hs _
    have hlegal : legalCachePolicy w = true ↔ w &&& 0xFFFEC0C0 = 0 ∧ 1 ≤ w.toNat % 64 ∧ w.toNat % 64 ≤ 32
        ∧ w.toNat / 256 % 64 < w.toNat % 64 := by
      unfold legalCachePolicy
      rw [Bool.and_eq_true, clearIn_iff, decide_eq_true_eq, field_zero, field_eq_div_mod]
      rfl
    dsimp only
    rw [hexec, cachePolicyOp, ← hlegal, extractLsb_zero, extractLsb_eq w 8 6]
    refine ⟨fun hw => ?_, fun hw => ?_⟩
    · rw [if_pos hw]
      rfl
    · rw [if_neg hw]
      rfl
  · have hexec : exec (.dozeDelayWrite w) s = .next (endUnit (dozeDelayOp w s.counted)) := unit_of_serves hs _
    have height : clearIn 0xFFFFFF00 w = decide (w.toNat < 256) := clearIn_above_eq (n := 8) (by decide)
    rw [hexec, dozeDelayOp, height, extractLsb_zero]
    refine ⟨fun hw => ?_, fun hw => ?_, fun hpos hw => ?_⟩
    · rw [decide_eq_false (not_lt.2 hw)]
      rfl
    · rw [hw]
      rfl
    · have hval : (w.setWidth 8).toNat = w.toNat := by
        rw [BitVec.toNat_setWidth]
        exact Nat.mod_eq_of_lt hw
      have hne : w.setWidth 8 ≠ 0 := fun h0 => by
        have := congrArg BitVec.toNat h0
        rw [hval] at this
        exact absurd this hpos.ne'
      rw [decide_eq_true hw]
      refine congrArg (fun u => Host.Outcome.next (endUnit u)) ?_
      dsimp only
      rw [if_neg (by decide), if_neg hne, armIntent]
      dsimp only
      have hunit : Config.dozeUnit = 100 := rfl
      have hcond : (w.setWidth 8 != 0 && decide ((w.setWidth 8).toNat * Config.dozeUnit ≤ s.counted.pwr.idleTimer)) = true
          ↔ w.toNat * 100 ≤ s.pwr.idleTimer := by
        rw [Bool.and_eq_true, bne_iff_ne, decide_eq_true_eq, hval, hunit]
        exact and_iff_right hne
      by_cases harm : w.toNat * 100 ≤ s.pwr.idleTimer
      · rw [if_pos (hcond.2 harm), decide_eq_true harm, Bool.or_true]
        rfl
      · rw [if_neg (fun h => harm (hcond.1 h)), decide_eq_false harm, Bool.or_false]
        rfl

end Sys2Proof.Machine
end

section
/-! Submission (O36), ABORT and RETIRE (O37). -/

namespace Sys2Proof.Machine

variable {s : State}

/-! ### The checks of a submission -/

/-- Check 4 of R21, in words. -/
theorem flagsLegal_iff (d : Desc) : d.flagsLegal = true ↔
    (d.rsv = true → d.cmd = .read) ∧ ((d.cond = true ∨ d.atom = true ∨ d.thru = true) → d.cmd = .write) := by
  simp only [Desc.flagsLegal, Bool.and_eq_true, Bool.or_eq_true, Bool.not_eq_true', beq_iff_eq, Bool.or_eq_false_iff]
  cases d.rsv <;> cases d.cond <;> cases d.atom <;> cases d.thru <;> simp

/-- Check 5 of R21, in words. -/
theorem tokenLegal_iff (d : Desc) : d.tokenLegal = true ↔ ((d.rsv = true ∨ d.cond = true) → d.token ≠ 0) := by
  simp only [Desc.tokenLegal, Bool.or_eq_true, Bool.not_eq_true', bne_iff_ne, Bool.or_eq_false_iff]
  cases d.rsv <;> cases d.cond <;> simp

theorem countLegal_iff (d : Desc) : d.countLegal = true ↔
    (d.cmd ∈ ([.read, .write, .trim, .prefetch, .clean, .purge, .discard] : List Cmd) → 1 ≤ d.count ∧ d.count ≤ 16)
      ∧ (d.cmd = .describe ∨ d.cmd = .health → d.count = 1)
      ∧ (d.cmd ∈ ([.flush, .sync, .sleep, .eraseAll] : List Cmd) → d.count = 0) := by
  unfold Desc.countLegal
  cases d.cmd <;> simp [Cmd.isRange, Cmd.isData]

theorem rangeLegal_iff (d : Desc) : d.rangeLegal = true ↔
    (d.cmd ∈ ([.read, .write, .trim, .prefetch, .clean, .purge, .discard] : List Cmd) → d.folio + d.count ≤ 245760)
      ∧ (d.cmd ∉ ([.read, .write, .trim, .prefetch, .clean, .purge, .discard] : List Cmd) → d.folio = 0)
      ∧ (d.cmd = .health → d.aux = 0 ∨ d.aux = 1) := by
  have hfolios : Config.numFolios = 245760 := rfl
  unfold Desc.rangeLegal
  rw [hfolios]
  cases d.cmd <;> simp [Cmd.isRange]

/-- The first of checks 4 to 7 that fails is the outcome. -/
theorem check_eq (d : Desc) :
    (d.flagsLegal = false → d.check = some .badFlags)
      ∧ (d.flagsLegal = true → d.tokenLegal = false → d.check = some .badToken)
      ∧ (d.flagsLegal = true → d.tokenLegal = true → d.countLegal = false → d.check = some .badCount)
      ∧ (d.flagsLegal = true → d.tokenLegal = true → d.countLegal = true → d.rangeLegal = false → d.check = some .badRange)
      ∧ (d.flagsLegal = true → d.tokenLegal = true → d.countLegal = true → d.rangeLegal = true → d.check = none) := by
  unfold Desc.check
  refine ⟨fun h4 => ?_, fun h4 h5 => ?_, fun h4 h5 h6 => ?_, fun h4 h5 h6 h7 => ?_, fun h4 h5 h6 h7 => ?_⟩
  · rw [h4]
    rfl
  · rw [h4, h5]
    rfl
  · rw [h4, h5, h6]
    rfl
  · rw [h4, h5, h6, h7]
    rfl
  · rw [h4, h5, h6, h7]
    rfl

/-- The command that a field names: the entry of Table 2-2 at its code. -/
theorem cmdOfCode_eq_getElem {k : Nat} (hk : 0 < k) : cmdOfCode k =
    ([.read, .write, .trim, .prefetch, .clean, .purge, .discard, .flush, .sync, .describe, .health, .sleep, .eraseAll] :
      List Cmd)[k - 1]? := by
  by_cases hle : k ≤ 13
  · have hall : ∀ k ≤ 13, 0 < k → cmdOfCode k = ([.read, .write, .trim, .prefetch, .clean, .purge, .discard, .flush, .sync,
        .describe, .health, .sleep, .eraseAll] : List Cmd)[k - 1]? := by decide
    exact hall k hle hk
  · rw [List.getElem?_eq_none (by simp only [List.length_cons, List.length_nil]; omega)]
    cases h : cmdOfCode k with
    | none => rfl
    | some c =>
      rw [cmdOfCode_eq_some h] at hle
      cases c <;> exact absurd (by decide) hle

theorem cmdOfCode_zero_or_above {k : Nat} (h : k = 0 ∨ 13 < k) : cmdOfCode k = none := by
  cases hc : cmdOfCode k with
  | none => rfl
  | some c =>
    rw [cmdOfCode_eq_some hc] at h
    cases c <;> exact absurd h (by decide)

/-! ### SUBMIT -/

/-- The descriptor that the staging words hold, for a command (Table 12-3). -/
def State.staged (s : State) (c : Cmd) : Desc :=
  { cmd := c, rsv := s.csq.cd[0].getLsbD 24, cond := s.csq.cd[0].getLsbD 25, atom := s.csq.cd[0].getLsbD 26
    thru := s.csq.cd[0].getLsbD 27, urgent := s.csq.cd[0].getLsbD 28, token := (s.csq.cd[0] >>> 16).setWidth 8
    count := s.csq.cd[0].toNat / 256 % 32, folio := s.csq.cd[1].toNat, aux := s.csq.cd[2], hostTag := s.csq.cd[3] }

theorem descOf_staged (c : Cmd) (s : State) : descOf c s.csq.cd[0] s.csq.cd[1] s.csq.cd[2] s.csq.cd[3] = s.staged c := by
  rw [descOf, field_eq_div_mod, extractLsb_eq]
  rfl

/-- What a submission of a slot number comes to, once its slot is FREE (R21). -/
theorem submitChecks_free {w : Word} {n : Fin 8} (hw : w.toNat = n.val) (hs : (s.slot n).state = .free) :
    s.submitChecks w =
      match cmdOfCode (s.csq.cd[0].toNat % 256) with
      | none => .inl .badCommand
      | some c =>
        match (s.staged c).check with
        | some r => .inl r
        | none => .inr (n, s.staged c) := by
  have hlt := n.isLt
  have hfield : field w 0 8 = n.val := by
    rw [field_zero, hw]
    omega
  have hcmd : (cmdField s.csq.cd[0]).toNat = s.csq.cd[0].toNat % 256 := by
    rw [cmdField, extractLsb_zero, BitVec.toNat_setWidth]
  unfold State.submitChecks
  dsimp only
  rw [dif_pos (by omega)]
  simp only [hfield, Fin.eta, hs, hcmd, descOf_staged]
  rfl

theorem submitChecks_busy {w : Word} {n : Fin 8} (hw : w.toNat = n.val) (hs : (s.slot n).state ≠ .free) :
    s.submitChecks w = .inl .slotBusy := by
  have hlt := n.isLt
  have hfield : field w 0 8 = n.val := by
    rw [field_zero, hw]
    omega
  unfold State.submitChecks
  dsimp only
  rw [dif_pos (by omega)]
  simp only [hfield, Fin.eta]
  rw [if_pos (bne_iff_ne.2 hs)]

theorem submitChecks_badSlot {w : Word} (h8 : 8 ≤ w.toNat) (hw : w.toNat < 256) : s.submitChecks w = .inl .badSlot := by
  have hfield : field w 0 8 = w.toNat := by
    rw [field_zero]
    exact Nat.mod_eq_of_lt hw
  unfold State.submitChecks
  dsimp only
  rw [dif_neg (by omega)]

theorem submitPower_eq (s : State) : submitPower s = { s with pwr := { s.pwr with
    intent := false, idleTimer := 0
    state := if s.pwr.state = .doze ∨ s.pwr.state = .sleep then .waking else s.pwr.state
    powerUp := if s.pwr.state = .doze ∨ s.pwr.state = .sleep then (if s.pwr.mediaOn = true then none else some 0)
      else s.pwr.powerUp } } := by
  unfold submitPower wakeCause
  by_cases h : s.pwr.state = .doze ∨ s.pwr.state = .sleep
  · simp [h]
  · simp [h]

/-- Settles O36. -/
theorem submitChecksThenAccepts : Obligations.SubmitChecksThenAccepts := by
  unfold Obligations.SubmitChecksThenAccepts
  intro s w hs
  have hexec : exec (.submit w) s = .next (endUnit (submitWrite w s.counted)) := unit_of_serves hs _
  have hlegal : clearIn 0xFFFFFF00 w = decide (w.toNat < 256) := clearIn_above_eq (n := 8) (by decide)
  have hreject {r : RejectReason} (hw : w.toNat < 256) (hc : s.submitChecks w = .inl r) :
      exec (.submit w) s = .next (endUnit (reject r (w.setWidth 8) (s.csq.cd[0].setWidth 8) s.counted)) := by
    have hcounted : s.counted.submitChecks w = .inl r := hc
    rw [hexec, submitWrite, hlegal, decide_eq_true hw, hcounted, extractLsb_zero, cmdField, extractLsb_zero]
    rfl
  refine ⟨fun hw => ?_, fun h8 hw => hreject hw (submitChecks_badSlot h8 hw), fun n hw => ⟨fun hbusy => ?_, fun hfree => ?_⟩⟩
  · rw [hexec, submitWrite, hlegal, decide_eq_false (not_lt.2 hw)]
    rfl
  · have hlt := n.isLt
    exact hreject (by omega) (submitChecks_busy hw hbusy)
  · have hlt : w.toNat < 256 := by
      have := n.isLt
      omega
    have hchecks := submitChecks_free hw hfree
    refine ⟨fun hcode => hreject hlt (by rw [hchecks, cmdOfCode_zero_or_above hcode]), fun c hc hpos => ?_⟩
    rw [cmdOfCode_eq_getElem hpos, hc] at hchecks
    dsimp only at hchecks
    have h4 := flagsLegal_iff (s.staged c)
    have h5 := tokenLegal_iff (s.staged c)
    have h6 := countLegal_iff (s.staged c)
    have h7 := rangeLegal_iff (s.staged c)
    obtain ⟨e4, e5, e6, e7, e8⟩ := check_eq (s.staged c)
    have hfails {b : Bool} {p : Prop} (h : b = true ↔ p) (hp : ¬p) : b = false := by
      rw [← Bool.not_eq_true, h]
      exact hp
    refine ⟨fun f4 => hreject hlt ?_, fun f4 f5 => hreject hlt ?_, fun f4 f5 f6 => hreject hlt ?_,
      fun f4 f5 f6 f7 => hreject hlt ?_, fun f4 f5 f6 f7 => ?_⟩
    · rw [hchecks, e4 (hfails h4 f4)]
    · rw [hchecks, e5 (h4.2 f4) (hfails h5 f5)]
    · rw [hchecks, e6 (h4.2 f4) (h5.2 f5) (hfails h6 f6)]
    · rw [hchecks, e7 (h4.2 f4) (h5.2 f5) (h6.2 f6) (hfails h7 f7)]
    · have hpass : s.counted.submitChecks w = .inr (n, s.staged c) := by
        have hsame : s.counted.submitChecks w = s.submitChecks w := rfl
        rw [hsame, hchecks, e8 (h4.2 f4) (h5.2 f5) (h6.2 f6) (h7.2 f7)]
      rw [hexec, submitWrite, hlegal, decide_eq_true hlt, hpass]
      dsimp only
      rw [acceptCommand, submitPower_eq]
      rfl

/-! ### ABORT and RETIRE -/

theorem getElem_vecMap {α β : Type} {k : Nat} (f : α → β) (v : Vector α k) (i : Fin k) : (vecMap f v)[i] = f v[i] := by
  simp [vecMap]

theorem line_dropMarks (n : Fin 8) (l : Fin 32) (s : State) : (dropMarks n s).line l =
    { s.line l with purgeMark := if (s.line l).purgeMark = some n then none else (s.line l).purgeMark } := by
  have hmap : (dropMarks n s).line l = if (s.line l).purgeMark = some n then { s.line l with purgeMark := none } else s.line l :=
    getElem_vecMap _ _ _
  rw [hmap]
  split
  · rfl
  · rfl

/-- Settles O37. -/
theorem abortAndRetireActByState : Obligations.AbortAndRetireActByState := by
  unfold Obligations.AbortAndRetireActByState
  refine fun s w => ⟨fun hs => ?_, fun hs => ?_⟩
  · have hexec : exec (.abort w) s = .next (endUnit (abortWrite w s.counted)) := unit_of_serves hs _
    have hlegal : clearIn 0xFFFFFF00 w = decide (w.toNat < 256) := clearIn_above_eq (n := 8) (by decide)
    refine ⟨fun hw => ?_, fun h8 hw => ?_, fun n hw => ?_⟩
    · rw [hexec, abortWrite, hlegal, decide_eq_false (not_lt.2 hw)]
      rfl
    · have hfield : field w 0 8 = w.toNat := by
        rw [field_zero]
        exact Nat.mod_eq_of_lt hw
      rw [hexec, abortWrite, hlegal, decide_eq_true hw, dif_neg (by omega), extractLsb_zero]
      rfl
    · have hlt := n.isLt
      have hfield : field w 0 8 = n.val := by
        rw [field_zero, hw]
        omega
      have habort : exec (.abort w) s = .next (endUnit (abortSlot n s.counted)) := by
        rw [hexec, abortWrite, hlegal, decide_eq_true (by omega), dif_pos (by omega)]
        simp only [hfield, Fin.eta]
        rfl
      have hstate {x : SlotState} (h : (s.slot n).state = x) : (s.counted.slot n).state = x := h
      refine ⟨fun h => ?_, fun h => ?_, fun h => ?_, fun h => ?_, fun h => ?_⟩
      · rcases h with h | h
        · rw [habort, abortSlot, hstate h]
        · rw [habort, abortSlot, hstate h]
      · rcases h with h | h | h
        · rw [habort, abortSlot, hstate h]
        · rw [habort, abortSlot, hstate h]
        · rw [habort, abortSlot, hstate h]
      · rw [habort, abortSlot, hstate h]
        rfl
      · rw [habort, abortSlot, hstate h]
        rfl
      · refine ⟨dropMarks n s.counted, ?_, rfl, fun l => ?_⟩
        · rw [habort, abortSlot, hstate h]
          rfl
        · exact line_dropMarks n l s.counted
  · have hexec : exec (.retire w) s = .next (endUnit (retireWrite w s.counted)) := unit_of_serves hs _
    refine ⟨fun hw => ?_, fun hw hc => ?_, fun c rest hw hc => ?_⟩
    · rw [hexec, retireWrite, if_pos (bne_iff_ne.2 hw)]
      rfl
    · have hcounted : s.counted.csq.completions = [] := hc
      rw [hexec, hw, retireWrite, if_neg (by decide), retireHead, hcounted]
    · have hcounted : s.counted.csq.completions = c :: rest := hc
      rw [hexec, hw, retireWrite, if_neg (by decide), retireHead, hcounted]
      rfl

end Sys2Proof.Machine
end

section
/-! HOST_CONTROL (O38), what the resets leave (O39, O40), and the start of a mount (O41). -/

namespace Sys2Proof.Machine

variable {s : State}

/-! ### Sparse tables -/

/-- The gap of a table from `k` up is not listed, and every number before it is. -/
theorem sparseGap_spec {α : Type} {l : List (Nat × α)} (h : sparseWf l = true) (k : Nat) :
    k ≤ sparseGap k l ∧ (∀ p ∈ l, p.1 ≠ sparseGap k l) ∧ ∀ i, k ≤ i → i < sparseGap k l → ∃ p ∈ l, p.1 = i := by
  rw [sparseWf_iff] at h
  induction l generalizing k with
  | nil => exact ⟨le_refl k, nofun, fun i hk hi => absurd hi (not_lt.2 hk)⟩
  | cons p rest ih =>
    obtain ⟨j, v⟩ := p
    obtain ⟨hlt, hrest⟩ := List.pairwise_cons.1 h
    rw [sparseGap]
    by_cases hjk : j = k
    · obtain ⟨hle, hnot, hall⟩ := ih hrest (k + 1)
      rw [if_pos hjk]
      refine ⟨by omega, List.forall_mem_cons.2 ⟨by dsimp only; omega, hnot⟩, fun i hk hi => ?_⟩
      by_cases hij : i = j
      · exact ⟨_, List.mem_cons_self, hij.symm⟩
      · obtain ⟨q, hq, hqi⟩ := hall i (by omega) hi
        exact ⟨q, List.mem_cons_of_mem _ hq, hqi⟩
    · rw [if_neg hjk]
      by_cases hlow : j < k
      · obtain ⟨hle, hnot, hall⟩ := ih hrest k
        rw [if_pos hlow]
        refine ⟨hle, List.forall_mem_cons.2 ⟨by dsimp only; omega, hnot⟩, fun i hk hi => ?_⟩
        obtain ⟨q, hq, hqi⟩ := hall i hk hi
        exact ⟨q, List.mem_cons_of_mem _ hq, hqi⟩
      · rw [if_neg hlow]
        refine ⟨le_refl k, List.forall_mem_cons.2 ⟨hjk, fun q hq => ?_⟩, fun i hk hi => absurd hi (not_lt.2 hk)⟩
        have := hlt q hq
        dsimp only at this
        omega

theorem sparseGet_map {α β : Type} (f : α → β) (k : Nat) (l : List (Nat × α)) :
    sparseGet k (l.map fun p => (p.1, f p.2)) = (sparseGet k l).map f := by
  induction l with
  | nil => rfl
  | cons p rest ih =>
    simp only [List.map_cons, sparseGet]
    split
    · rfl
    · exact ih

/-- Taking the default's entries off a table changes no reading. -/
theorem getD_sparseGet_filter {α : Type} {d : α} {q : Nat × α → Bool} {l : List (Nat × α)} (h : sparseWf l = true)
    (hq : ∀ p, q p = false → p.2 = d) (k : Nat) : (sparseGet k (l.filter q)).getD d = (sparseGet k l).getD d := by
  have hwf : sparseWf (l.filter q) = true := sparseWf_filter q h
  cases hl : sparseGet k l with
  | none =>
    rw [sparseGet_eq_none_iff] at hl
    have hnone : sparseGet k (l.filter q) = none := sparseGet_eq_none fun p hp => hl p (List.mem_of_mem_filter hp)
    rw [hnone]
  | some v =>
    have hmem := (sparseGet_eq_some h).1 hl
    cases hkeep : q (k, v) with
    | true =>
      have hsome : sparseGet k (l.filter q) = some v := (sparseGet_eq_some hwf).2 (List.mem_filter.2 ⟨hmem, hkeep⟩)
      rw [hsome]
    | false =>
      have hv : v = d := hq _ hkeep
      cases hf : sparseGet k (l.filter q) with
      | none => exact hv.symm
      | some w =>
        have hw := (sparseGet_eq_some h).2 (List.mem_of_mem_filter ((sparseGet_eq_some hwf).1 hf))
        rw [hl] at hw
        rw [hw]

/-! ### HOST_CONTROL -/

theorem wakeAction_of_off (h : s.pwr.state = .doze ∨ s.pwr.state = .sleep) : wakeAction s = { s with pwr := { s.pwr with
    state := .waking, powerUp := if s.pwr.mediaOn = true then none else some 0 } } := by
  have hcause : wakeCause s = { s with pwr := { s.pwr with
      state := .waking, powerUp := if s.pwr.mediaOn = true then none else some 0 } } := by
    unfold wakeCause
    rw [if_pos (by simpa using h)]
  unfold wakeAction
  rcases h with h | h
  · rw [h, hcause]
  · rw [h, hcause]

theorem wakeAction_idle (h : s.pwr.state = .idle) :
    wakeAction s = { s with pwr := { s.pwr with intent := false, idleTimer := 0 } } := by
  rw [wakeAction, h]

theorem wakeAction_active (h : s.pwr.state = .active) : wakeAction s = { s with pwr := { s.pwr with intent := false } } := by
  rw [wakeAction, h]

theorem wakeAction_of_other (h : s.pwr.state = .waking ∨ s.pwr.state = .mounting ∨ s.pwr.state = .resetHeld) :
    wakeAction s = s := by
  unfold wakeAction
  rcases h with h | h | h
  · rw [h]
  · rw [h]
  · rw [h]

/-- Settles O38. -/
theorem hostControlActsInOrder : Obligations.HostControlActsInOrder := by
  unfold Obligations.HostControlActsInOrder
  intro s w hs
  have hlegal : clearIn 0xFFFFFFF8 w = decide (w.toNat < 8) := clearIn_above_eq (n := 3) (by decide)
  have hunit : (.next (writeAt 0x03 (hostControlOp w) (caughtUp s)) : Host.Outcome State Fault Refusal)
      = .next (endUnit (hostControlOp w s.counted)) := unit_of_serves hs _
  have hwake : exec (.wake w) s = .next (endUnit (hostControlOp w s.counted)) := hunit
  have hnen : exec (.nenWrite w) s = .next (endUnit (hostControlOp w s.counted)) := hunit
  have hreset : exec (.controllerReset w) s = .next (endUnit (hostControlOp w s.counted)) := hunit
  refine ⟨fun hw => ?_, fun hw => ⟨fun h2 => ?_, fun h2 h1 => ?_, fun h2 h1 => ?_⟩⟩
  · have hrefused : hostControlOp w s.counted = reject .badRegisterValue 0x03 0 s.counted := by
      rw [hostControlOp, hlegal, decide_eq_false (not_lt.2 hw)]
      rfl
    simp only [List.forall_mem_cons]
    exact ⟨by rw [hnen, hrefused], by rw [hwake, hrefused], by rw [hreset, hrefused], nofun⟩
  · rw [hreset, hostControlOp, hlegal, decide_eq_true hw, h2]
    rfl
  · rw [hnen, hostControlOp, hlegal, decide_eq_true hw, h2, h1]
    rfl
  · have hwoken : hostControlOp w s.counted = wakeAction { s.counted with rst := { s.rst with nen := w.getLsbD 0 } } := by
      rw [hostControlOp, hlegal, decide_eq_true hw, h2, h1]
      rfl
    rw [hwake, hwoken]
    exact ⟨fun h => congrArg (fun u => Host.Outcome.next (endUnit u)) (wakeAction_of_off h),
      fun h => congrArg (fun u => Host.Outcome.next (endUnit u)) (wakeAction_idle h),
      fun h => congrArg (fun u => Host.Outcome.next (endUnit u)) (wakeAction_active h),
      fun h => congrArg (fun u => Host.Outcome.next (endUnit u)) (wakeAction_of_other h)⟩

/-! ### The start of a mount -/

theorem group_state_retired_iff (h : s.StoresSound) (g : Nat) :
    (s.group g).state = .retired ↔ ∃ p ∈ s.mm.groups.filter fun p => p.2.state == .retired, p.1 = g := by
  obtain ⟨-, -, hwf, -⟩ := h
  unfold State.group
  constructor
  · intro hret
    cases hg : sparseGet g s.mm.groups with
    | none =>
      rw [hg] at hret
      cases hret
    | some x =>
      rw [hg] at hret
      exact ⟨(g, x), List.mem_filter.2 ⟨(sparseGet_eq_some hwf).1 hg, beq_iff_eq.2 hret⟩, rfl⟩
  · rintro ⟨⟨k, x⟩, hp, rfl⟩
    obtain ⟨hmem, hret⟩ := List.mem_filter.1 hp
    rw [(sparseGet_eq_some hwf).2 hmem]
    exact beq_iff_eq.1 hret

theorem nextGroup_spec (h : s.StoresSound) (k : Nat) :
    k ≤ s.nextGroup k ∧ (s.group (s.nextGroup k)).state ≠ .retired
      ∧ ∀ i, k ≤ i → i < s.nextGroup k → (s.group i).state = .retired := by
  obtain ⟨hle, hnot, hall⟩ := sparseGap_spec (sparseWf_filter (fun p => p.2.state == .retired) h.2.2.1) k
  refine ⟨hle, fun hret => ?_, fun i hk hi => (group_state_retired_iff h i).2 (hall i hk hi)⟩
  obtain ⟨p, hp, hpk⟩ := (group_state_retired_iff h _).1 hret
  exact hnot p hp hpk

/-- The mount goes on with the first group from `k` up that is not RETIRED. -/
theorem nextGroup_eq (h : s.StoresSound) {k g : Nat} (hk : k ≤ g) (hg : (s.group g).state ≠ .retired)
    (hall : ∀ i, k ≤ i → i < g → (s.group i).state = .retired) : s.nextGroup k = g := by
  obtain ⟨hle, hnot, hbelow⟩ := nextGroup_spec h k
  rcases lt_trichotomy (s.nextGroup k) g with hlt | heq | hgt
  · exact absurd (hall _ hle hlt) hnot
  · exact heq
  · exact absurd (hbelow g hk hgt) hg

theorem mountGroup_found {k g : Nat} (hnext : s.nextGroup k = g) (hg : g < 4096) :
    mountGroup k s = { s with mm := { s.mm with
      port := some { req := .mount, op := if (s.group g).erasing = true then .erase g else .read (g * 64), ticks := 0 } } } := by
  unfold mountGroup
  rw [hnext]
  dsimp only
  rw [if_pos (show g < Config.numGroups from hg)]
  split
  · rfl
  · rfl

theorem mountGroup_none {k : Nat} (hnext : 4096 ≤ s.nextGroup k) :
    mountGroup k s = { s with mount := s.mount.map fun m => { m with phase := .resolution } } := by
  unfold mountGroup
  dsimp only
  rw [if_neg (show ¬ s.nextGroup k < Config.numGroups from not_lt.2 hnext)]
  rfl

/-- Settles O41. -/
theorem mountBeginsAfterFullReset : Obligations.MountBeginsAfterFullReset := by
  unfold Obligations.MountBeginsAfterFullReset
  have hone (w : Word) : clearIn 0xFFFFFFFE w = decide (w.toNat < 2) := clearIn_above_eq (n := 1) (by decide)
  have hwrite {s : State} (hrest : s.AtRest) (hacc : s.hpi.acceptsWrite 0x02 = true) (w : Word) :
      (.next (writeAt 0x02 (portConfigOp w) (caughtUp s)) : Host.Outcome State Fault Refusal)
        = .next (endUnit (portConfigOp w s.counted)) := by
    rw [caughtUp_atRest hrest, writeAt_portConfig _ hacc]
  have hillegal {s : State} {w : Word} (hw : 2 ≤ w.toNat) :
      portConfigOp w s.counted = reject .badRegisterValue 0x02 0 s.counted := by
    rw [portConfigOp, hone, decide_eq_false (not_lt.2 hw)]
    rfl
  have hheldReject {s : State} (hheld : s.held = true) : reject .badRegisterValue 0x02 0 s.counted = s.counted := by
    unfold reject
    rw [if_pos (show s.counted.held = true from hheld)]
  refine ⟨fun s hrest => ⟨?_, fun hlow => ?_, fun hlow => ?_, fun w hacc => ?_⟩,
    fun s hrest => ⟨fun hpor => ?_, fun hpor => ?_, fun hlow hpin => ?_, fun hlow hpin => ?_, fun hlow => ?_,
      fun w hacc => ?_⟩, fun s hs => ⟨fun g hg hret hall => ?_, fun hall => ?_⟩⟩
  · change Host.Outcome.next (endUnit (fullReset .por (caughtUp s))) = _
    rw [caughtUp_atRest hrest]
  · change Host.Outcome.next (endUnit (pinResetOp (caughtUp s))) = _
    rw [caughtUp_atRest hrest, pinResetOp, if_neg (by simp [hlow])]
  · change Host.Outcome.next (endUnit (pinResetOp (caughtUp s))) = _
    rw [caughtUp_atRest hrest, pinResetOp, if_pos hlow]
  · have hexec : exec (.portReset w) s = .next (endUnit (portConfigOp w s.counted)) := hwrite hrest hacc w
    refine ⟨fun hw hheld => ?_, fun hbit hheld => ?_, fun hbit hw hheld => ?_⟩
    · have hcounted : s.counted.held = false := hheld
      rw [hexec, hw, portConfigOp, if_neg (by decide), if_pos (by decide), hcounted]
      rfl
    · have hcounted : s.counted.held = true := hheld
      rw [hexec]
      by_cases hsmall : w.toNat < 2
      · rw [portConfigOp, hone, decide_eq_true hsmall, hbit, hcounted]
        rfl
      · rw [hillegal (not_lt.1 hsmall), hheldReject hheld]
    · have hlarge : 2 ≤ w.toNat := by
        by_contra hlt
        have hval : w.toNat = 0 ∨ w.toNat = 1 := by omega
        rcases hval with h0 | h1
        · rw [BitVec.eq_of_toNat_eq (y := 0) h0] at hbit
          cases hbit
        · exact hw (BitVec.eq_of_toNat_eq h1)
      rw [hexec, hillegal hlarge]
  · change Host.Outcome.next (endUnit (porEndOp (caughtUp s))) = _
    rw [caughtUp_atRest hrest, porEndOp, if_pos hpor]
  · change Host.Outcome.next (endUnit (porEndOp (caughtUp s))) = _
    rw [caughtUp_atRest hrest, porEndOp, if_neg hpor]
  · change Host.Outcome.next (endUnit (pinReleaseOp (caughtUp s))) = _
    rw [caughtUp_atRest hrest, pinReleaseOp, if_pos hlow]
    dsimp only
    rw [if_pos hpin]
  · change Host.Outcome.next (endUnit (pinReleaseOp (caughtUp s))) = _
    rw [caughtUp_atRest hrest, pinReleaseOp, if_pos hlow]
    dsimp only
    rw [if_neg hpin]
  · change Host.Outcome.next (endUnit (pinReleaseOp (caughtUp s))) = _
    rw [caughtUp_atRest hrest, pinReleaseOp, if_neg (by simp [hlow])]
  · have hexec : exec (.portResetRelease w) s = .next (endUnit (portConfigOp w s.counted)) := hwrite hrest hacc w
    refine ⟨fun hw hheld => ?_, fun hw hheld => ?_, fun hw hheld => ?_, fun hw hheld => ?_⟩
    · have hcounted : s.counted.held = true := hheld
      rw [hexec, hw, portConfigOp, if_neg (by decide), if_neg (by decide), hcounted]
      rfl
    · have hcounted : s.counted.held = false := hheld
      rw [hexec, hw, portConfigOp, if_neg (by decide), if_neg (by decide), hcounted]
      rfl
    · rw [hexec, hillegal hw, hheldReject hheld]
    · rw [hexec, hillegal hw]
  · have hstart : ({ s with mount := some Mount.start } : State).StoresSound := hs
    exact mountGroup_found (nextGroup_eq hstart (Nat.zero_le g) hret fun i _ hi => hall i hi) hg
  · have hstart : ({ s with mount := some Mount.start } : State).StoresSound := hs
    refine mountGroup_none (s := { s with mount := some Mount.start }) ?_
    by_contra hlt
    exact (nextGroup_spec hstart 0).2.1 (hall _ (not_le.1 hlt))

end Sys2Proof.Machine
end

section
/-! What the full and the partial reset leave (O40, O39). -/

namespace Sys2Proof.Machine

variable {s : State}

/-! ### The full reset -/

theorem group_surviving (h : sparseWf s.mm.groups = true) (u : State) (hu : u.mm = s.mm.surviving) (g : Nat) :
    u.group g = (s.group g).recorded := by
  have hfilter := getD_sparseGet_filter (d := Group.fresh) (q := fun p : Nat × Group => p.2 != Group.fresh)
    (sparseWf_map Group.recorded h) (fun p hp => by simpa using hp) g
  rw [sparseGet_map] at hfilter
  rw [State.group, hu]
  refine Eq.trans hfilter ?_
  rw [State.group]
  cases sparseGet g s.mm.groups with
  | none => rfl
  | some x => rfl

theorem recorded_eq (x : Group) : x.recorded = { x with
    state := if x.state = .retiring ∨ x.state = .retired then x.state else .free, nextFree := 0 } := by
  obtain ⟨state, origin, erases, erasing, nextFree⟩ := x
  cases state with
  | free => rfl
  | opened => rfl
  | full => rfl
  | retiring => rfl
  | retired => rfl

/-- The state that a full reset leaves, before the program in progress is cut off. -/
def resetLeaves (k : ResetKind) (s : State) : State :=
  { hpi := if k = .port then s.hpi.continued else s.hpi.abandoned
    csq := .reset, dp := .reset, fc := .reset, rvt := .reset, mm := s.mm.surviving, mount := none, ntc := .reset
    pwr := .reset
    rst := { resetnLow := s.rst.resetnLow, inReset := if k = .port then none else some k, portReset := k = .port
             nen := false, cause := k, collision := none }
    pending := s.pending }

theorem fullReset_eq (k : ResetKind) (s : State) : fullReset k s = cutOff s.mm.port (resetLeaves k s) := rfl

theorem cutOff_program (q : Requester) (l : Loc) (p : Prog) (n : Nat) (s : State) :
    cutOff (some { req := q, op := .program l p, ticks := n }) s
      = putGroup (l / 64) { s.group (l / 64) with nextFree := l % 64 + 1 } (putCell l p false s) := rfl

/-- Settles O40. -/
theorem fullResetLeavesTheMedia : Obligations.FullResetLeavesTheMedia := by
  unfold Obligations.FullResetLeavesTheMedia
  intro k s hs
  obtain ⟨-, -, hgroups, -⟩ := hs
  have hgroup (g : Nat) : (resetLeaves k s).group g = { s.group g with
      state := if (s.group g).state = .retiring ∨ (s.group g).state = .retired then (s.group g).state else .free
      nextFree := 0 } := by
    rw [group_surviving hgroups _ rfl, recorded_eq]
  have hcell (loc : Loc) : (resetLeaves k s).cell loc = s.cell loc := rfl
  dsimp only
  have hframe := fullReset_frame k s
  have hbuf (b : BufId) : (fullReset k s).buf b = { holder := none, words := [], consumed := 0 } := by
    rw [hframe]
    cases b
    · rfl
    · rfl
  refine ⟨by rw [hframe]; rfl, hbuf, by rw [hframe]; rfl, by rw [hframe]; rfl, by rw [hframe], by rw [hframe],
    by rw [hframe]; rfl, by rw [hframe]; rfl, by rw [hframe]; rfl, by rw [hframe], ?_, ?_, fun hk => ?_, fun hk => ?_,
    by rw [hframe]; rfl, fun g => ?_, fun loc => ?_⟩
  · rw [hframe]
    dsimp only
    split
    · rfl
    · rfl
  · rw [hframe]
    dsimp only
    split
    · rfl
    · rfl
  · rw [hframe]
    dsimp only
    rw [if_pos hk]
    rfl
  · rw [hframe]
    dsimp only
    rw [if_neg hk]
    exact ⟨rfl, rfl, rfl, rfl, rfl⟩
  · rw [fullReset_eq]
    cases hport : s.mm.port with
    | none => exact hgroup g
    | some o =>
      obtain ⟨q, op, n⟩ := o
      cases op with
      | read l => exact hgroup g
      | erase l => exact hgroup g
      | program l p =>
        rw [cutOff_program, group_putGroup]
        dsimp only
        by_cases hg : l / 64 = g
        · subst hg
          rw [if_pos rfl, if_pos rfl, hgroup]
        · rw [if_neg (Ne.symm hg), if_neg hg]
          exact hgroup g
  · rw [fullReset_eq]
    cases hport : s.mm.port with
    | none => exact hcell loc
    | some o =>
      obtain ⟨q, op, n⟩ := o
      cases op with
      | read l => exact hcell loc
      | erase l => exact hcell loc
      | program l p =>
        rw [cutOff_program]
        dsimp only
        by_cases hl : l = loc
        · subst hl
          rw [if_pos rfl]
          exact cell_putCell_self l p false _
        · rw [if_neg hl]
          exact cell_putCell_ne p false _ (Ne.symm hl)

/-! ### The lines after a cache update -/

theorem findLine_some {f : Nat} {l : Fin 32} (h : s.findLine f = some l) :
    (s.line l).state ≠ .invalid ∧ (s.line l).folio = f := by
  simpa using List.find?_some h

theorem findLine_congr {t : State} (h : ∀ l, ((t.line l).state = .invalid ↔ (s.line l).state = .invalid)
    ∧ (t.line l).folio = (s.line l).folio) (f : Nat) : t.findLine f = s.findLine f := by
  unfold State.findLine
  congr 1
  funext l
  obtain ⟨hstate, hfolio⟩ := h l
  rw [hfolio]
  by_cases hinv : (s.line l).state = .invalid
  · rw [hinv, hstate.2 hinv]
  · rw [bne_iff_ne.2 hinv, bne_iff_ne.2 (fun h => hinv (hstate.1 h))]

theorem line_writeClean (l : Fin 32) (f : Nat) (d : FolioData) (s : State) (m : Fin 32) :
    (writeClean l f d s).line m = if m = l then
      { s.line l with state := .clean, folio := f, version := (s.line l).version + 1, purgeMark := none, data := d }
    else s.line m := by
  have hset : (writeClean l f d s).line m = (setLine l { s.line l with
      state := .clean, folio := f, version := (s.line l).version + 1, purgeMark := none, data := d }
      (givePartial (s.line l).purgeMark s)).line m := rfl
  rw [hset]
  by_cases hm : m = l
  · subst hm
    rw [if_pos rfl, line_setLine_self]
  · rw [if_neg hm, line_setLine_ne _ _ hm, givePartial_frame]
    rfl

theorem desc_modSlot {f : Slot → Slot} (hf : ∀ x, (f x).desc = x.desc) (m n : Fin 8) (s : State) :
    ((modSlot m f s).slot n).desc = (s.slot n).desc := by
  rw [slot_modSlot]
  split
  · rename_i h
    rw [hf, h]
  · rfl

theorem desc_writeClean (l : Fin 32) (f : Nat) (d : FolioData) (s : State) (n : Fin 8) :
    ((writeClean l f d s).slot n).desc = (s.slot n).desc := by
  have hmap : ((writeClean l f d s).slot n).desc = ((givePartial (s.line l).purgeMark s).slot n).desc := by
    unfold writeClean satisfyTriples
    dsimp only
    rw [slot_mapSlots]
    rfl
  rw [hmap]
  unfold givePartial
  split
  · rw [desc_modSlot fun _ => ?_]
    rfl
  · rfl

theorem dirtyList_writeClean (l : Fin 32) (f : Nat) (d : FolioData) (s : State) :
    (writeClean l f d s).fc.dirtyList = s.fc.dirtyList.erase l := by
  change (givePartial (s.line l).purgeMark s).fc.dirtyList.erase l = _
  rw [givePartial_frame]

/-! ### What a partial reset completes first -/

/-- What the updates of the positions `done` of an atomic WRITE's folios leave, from `s` to `t` (R179). -/
structure ResetUpdated (a : Apply) (s : State) (done : List Nat) (t : State) : Prop where
  frame : t = { s with
    csq := { s.csq with slots := t.csq.slots }
    fc := { s.fc with
      lines := t.fc.lines
      dirtyList := done.foldl (fun list i => match s.findLine ((s.slot a.slot).desc.folio + i) with
        | some l => list.erase l
        | none => list) s.fc.dirtyList } }
  desc : (t.slot a.slot).desc = (s.slot a.slot).desc
  updated : ∀ i ∈ done, ∀ l, s.findLine ((s.slot a.slot).desc.folio + i) = some l → t.line l = { s.line l with
    state := .clean, version := (s.line l).version + 1, purgeMark := none, data := s.bufferFolio a.slot i }
  others : ∀ l, (∀ i ∈ done, s.findLine ((s.slot a.slot).desc.folio + i) ≠ some l) → t.line l = s.line l

namespace ResetUpdated

variable {a : Apply} {done : List Nat} {t : State}

theorem refl (a : Apply) (s : State) : ResetUpdated a s [] s := ⟨rfl, rfl, nofun, fun _ _ => rfl⟩

theorem line_cases (h : ResetUpdated a s done t) (l : Fin 32) : t.line l = s.line l ∨ ((s.line l).state ≠ .invalid
    ∧ ∃ i, t.line l = { s.line l with
      state := .clean, version := (s.line l).version + 1, purgeMark := none, data := s.bufferFolio a.slot i }) := by
  by_cases hl : ∃ i ∈ done, s.findLine ((s.slot a.slot).desc.folio + i) = some l
  · obtain ⟨i, hi, hf⟩ := hl
    exact .inr ⟨(findLine_some hf).1, i, h.updated i hi l hf⟩
  · push Not at hl
    exact .inl (h.others l hl)

theorem findLine (h : ResetUpdated a s done t) (f : Nat) : t.findLine f = s.findLine f := by
  refine findLine_congr (fun l => ?_) f
  rcases h.line_cases l with hl | ⟨hvalid, i, hl⟩
  · rw [hl]
    exact ⟨Iff.rfl, rfl⟩
  · rw [hl]
    exact ⟨iff_of_false (by simp) hvalid, rfl⟩

theorem bufferFolio (h : ResetUpdated a s done t) (n : Fin 8) (i : Nat) : t.bufferFolio n i = s.bufferFolio n i := by
  rw [h.frame]
  rfl

theorem step (h : ResetUpdated a s done t) {i : Nat} (hi : i ∉ done) :
    ResetUpdated a s (done ++ [i]) (resetUpdate a t i) := by
  unfold resetUpdate
  dsimp only
  rw [h.desc, h.findLine, h.bufferFolio]
  cases hf : s.findLine ((s.slot a.slot).desc.folio + i) with
  | none =>
    refine ⟨?_, h.desc, fun j hj l hl => ?_, fun l hl => h.others l fun j hj => hl j (List.mem_append_left _ hj)⟩
    · rw [List.foldl_append, List.foldl_cons, List.foldl_nil, hf]
      exact h.frame
    · rcases List.mem_append.1 hj with hj | hj
      · exact h.updated j hj l hl
      · rw [List.mem_singleton.1 hj, hf] at hl
        cases hl
  | some l =>
    have hother (j : Nat) (hj : j ∈ done) : s.findLine ((s.slot a.slot).desc.folio + j) ≠ some l := by
      intro hl
      have h1 := (findLine_some hl).2
      have h2 := (findLine_some hf).2
      have : j = i := by omega
      exact hi (this ▸ hj)
    have hline : t.line l = s.line l := h.others l hother
    have hfolio := (findLine_some hf).2
    refine ⟨?_, (desc_writeClean _ _ _ _ _).trans h.desc, fun j hj m hm => ?_, fun m hm => ?_⟩
    · rw [List.foldl_append, List.foldl_cons, List.foldl_nil, hf]
      have hframe := writeClean_frame l ((s.slot a.slot).desc.folio + i) (s.bufferFolio a.slot i) t
      rw [dirtyList_writeClean] at hframe
      rw [h.frame] at hframe ⊢
      exact hframe
    · rw [line_writeClean]
      rcases List.mem_append.1 hj with hj | hj
      · have hne : m ≠ l := by
          rintro rfl
          exact hother j hj hm
        rw [if_neg hne]
        exact h.updated j hj m hm
      · rw [List.mem_singleton.1 hj, hf] at hm
        cases hm
        rw [if_pos rfl, hline, List.mem_singleton.1 hj, ← hfolio]
    · have hne : m ≠ l := by
        rintro rfl
        exact hm i (List.mem_append_right _ (List.mem_singleton_self i)) hf
      rw [line_writeClean, if_neg hne]
      exact h.others m fun j hj => hm j (List.mem_append_left _ hj)

theorem foldl (h : ResetUpdated a s done t) {rest : List Nat} (hnodup : (done ++ rest).Nodup) :
    ResetUpdated a s (done ++ rest) (rest.foldl (resetUpdate a) t) := by
  induction rest generalizing done t with
  | nil => rwa [List.append_nil]
  | cons i rest ih =>
    have hi : i ∉ done := fun hmem =>
      (List.nodup_append.1 hnodup).2.2 i hmem i List.mem_cons_self rfl
    rw [List.append_cons] at hnodup ⊢
    exact ih (h.step hi) hnodup

end ResetUpdated

theorem unmapRange_frame (start count : Nat) (e : MapEntry) (s : State) :
    unmapRange start count e s = { s with mm := { s.mm with map := (unmapRange start count e s).mm.map } } := by
  have hfold (l : List Nat) (t : State) : l.foldl (fun s i => putEntry (start + i) e s) t
      = { t with mm := { t.mm with map := (l.foldl (fun s i => putEntry (start + i) e s) t).mm.map } } := by
    induction l generalizing t with
    | nil => rfl
    | cons i l ih =>
      rw [List.foldl_cons, ih]
      rfl
  unfold unmapRange
  split
  · rfl
  · exact hfold _ s

/-- After the unmapping of a range its folios have the new entry, the others their own. -/
theorem mapEntry_unmapRange (start count : Nat) (e : MapEntry) (s : State) {f : Nat} (hf : start = 0 → count = 245760 → f < 245760) :
    (unmapRange start count e s).mapEntry f = if start ≤ f ∧ f < start + count then e else s.mapEntry f := by
  have hfold (n : Nat) : ((List.range n).foldl (fun s i => putEntry (start + i) e s) s).mapEntry f
      = if start ≤ f ∧ f < start + n then e else s.mapEntry f := by
    induction n with
    | zero => rw [if_neg (by omega)]; rfl
    | succ n ih =>
      rw [List.range_succ, List.foldl_append, List.foldl_cons, List.foldl_nil, mapEntry_putEntry, ih]
      split_ifs with h1 h2 h3 h3
      · rfl
      · omega
      · rfl
      · omega
      · omega
      · rfl
  unfold unmapRange
  split
  · rename_i hall
    obtain ⟨hstart, hcount⟩ : start = 0 ∧ count = Config.numFolios := by
      simpa only [Bool.and_eq_true, decide_eq_true_eq] using hall
    have hsize : Config.numFolios = 245760 := rfl
    rw [hsize] at hcount
    have := hf hstart hcount
    rw [if_pos (by omega)]
    rfl
  · exact hfold count

section
variable {a : Apply} (ha : s.csq.apply = some a)
include ha

theorem completeFirst_of_other (hkind : a.kind ≠ .writeAtomic) (hstep : a.step < 2 ∨ a.kind ≠ .trim ∧ a.kind ≠ .eraseAll) :
    completeFirst s = s := by
  unfold completeFirst
  rw [ha]
  dsimp only
  cases hk : a.kind with
  | writeAtomic => exact absurd hk hkind
  | trim => exact if_neg (not_le.2 (hstep.resolve_right fun hne => hne.1 hk))
  | eraseAll => exact if_neg (not_le.2 (hstep.resolve_right fun hne => hne.2 hk))
  | _ => rfl

theorem completeFirst_of_atomic (hkind : a.kind = .writeAtomic) :
    completeFirst s = if (s.slot a.slot).desc.count < a.step then a.accepted.foldl (resetUpdate a) s else s := by
  unfold completeFirst
  rw [ha]
  dsimp only
  rw [hkind]

theorem completeFirst_of_note (hkind : a.kind = .trim ∨ a.kind = .eraseAll) (hstep : 2 ≤ a.step) :
    completeFirst s = unmapRange (s.noteRange a).1 (s.noteRange a).2 a.noteEntry s := by
  unfold completeFirst
  rw [ha]
  dsimp only
  rcases hkind with hkind | hkind
  · rw [hkind]
    exact if_pos hstep
  · rw [hkind]
    exact if_pos hstep

end

theorem completeFirst_of_none (h : s.csq.apply = none) : completeFirst s = s := by
  rw [completeFirst, h]

theorem foldl_resetUpdate_frame (a : Apply) (l : List Nat) (t : State) : l.foldl (resetUpdate a) t = { t with
    csq := { t.csq with slots := (l.foldl (resetUpdate a) t).csq.slots }
    fc := { t.fc with
      lines := (l.foldl (resetUpdate a) t).fc.lines, dirtyList := (l.foldl (resetUpdate a) t).fc.dirtyList } } := by
  induction l generalizing t with
  | nil => rfl
  | cons i l ih =>
    rw [List.foldl_cons, ih]
    unfold resetUpdate
    dsimp only
    split
    · rw [writeClean_frame]
    · rfl

theorem completeFirst_frame (s : State) : completeFirst s = { s with
    csq := { s.csq with slots := (completeFirst s).csq.slots }
    fc := { s.fc with lines := (completeFirst s).fc.lines, dirtyList := (completeFirst s).fc.dirtyList }
    mm := { s.mm with map := (completeFirst s).mm.map } } := by
  cases ha : s.csq.apply with
  | none => rw [completeFirst_of_none ha]
  | some a =>
    by_cases hatomic : a.kind = .writeAtomic
    · rw [completeFirst_of_atomic ha hatomic]
      split
      · rw [foldl_resetUpdate_frame]
      · rfl
    · by_cases hstep : a.step < 2 ∨ a.kind ≠ .trim ∧ a.kind ≠ .eraseAll
      · rw [completeFirst_of_other ha hatomic hstep]
      · have hnote : (a.kind = .trim ∨ a.kind = .eraseAll) ∧ 2 ≤ a.step := by
          by_cases htrim : a.kind = .trim
          · exact ⟨.inl htrim, by omega⟩
          · by_cases hall : a.kind = .eraseAll
            · exact ⟨.inr hall, by omega⟩
            · exact absurd (.inr ⟨htrim, hall⟩) hstep
        rw [completeFirst_of_note ha hnote.1 hnote.2, unmapRange_frame]

/-! ### The partial reset -/

theorem wakeCause_spec (s : State) : wakeCause s = { s with pwr := { s.pwr with
    state := if s.pwr.state = .doze ∨ s.pwr.state = .sleep then .waking else s.pwr.state
    powerUp := if s.pwr.state = .doze ∨ s.pwr.state = .sleep then (if s.pwr.mediaOn = true then none else some 0)
      else s.pwr.powerUp } } := by
  unfold wakeCause
  by_cases h : s.pwr.state = .doze ∨ s.pwr.state = .sleep
  · rw [if_pos h, if_pos h, if_pos (by simpa using h)]
  · rw [if_neg h, if_neg h, if_neg (by simpa using h)]

theorem dirtyCount_congr {u v : State} (h : u.fc = v.fc) : u.dirtyCount = v.dirtyCount := by
  unfold State.dirtyCount State.dirtyLines State.line
  rw [h]

theorem partialReset_frame (k : ResetKind) (r : Option (FaultCode × FaultCode)) (s : State) : partialReset k r s = { s with
    hpi := s.hpi.continued, csq := .reset, dp := .reset, rvt := .reset, ntc := s.ntc.partialReset
    fc := (cachePartial (completeFirst s)).fc
    mm := { s.mm with map := (completeFirst s).mm.map, port := s.mm.port.map PortOp.orphaned }
    pwr := { s.pwr with
      intent := false, idleTimer := 0
      state := if s.pwr.state = .doze ∨ s.pwr.state = .sleep then .waking else s.pwr.state
      powerUp := if s.pwr.state = .doze ∨ s.pwr.state = .sleep then (if s.pwr.mediaOn = true then none else some 0)
        else s.pwr.powerUp }
    rst := { s.rst with cause := k, collision := if r.isSome then r else s.rst.collision } } := by
  unfold partialReset
  dsimp only
  rw [wakeCause_spec, completeFirst_frame]
  rfl

theorem line_partialReset (k : ResetKind) (r : Option (FaultCode × FaultCode)) (s : State) (l : Fin 32) :
    (partialReset k r s).line l = ((completeFirst s).line l).partialReset := by
  rw [partialReset_frame]
  exact getElem_vecMap _ _ _

/-- Settles O39. -/
theorem partialResetKeepsAndClears : Obligations.PartialResetKeepsAndClears := by
  unfold Obligations.PartialResetKeepsAndClears
  intro k r s
  have hframe := partialReset_frame k r s
  have hhigh : (completeFirst s).fc.high = s.fc.high := by rw [completeFirst_frame]
  dsimp only
  refine ⟨by rw [hframe], by rw [hframe], by rw [hframe]; rfl, by rw [hframe]; rfl, by rw [hframe]; rfl, by rw [hframe],
    ?_, ?_, ?_, fun l => ?_, by rw [hframe], by rw [hframe], completeFirst_of_none, fun a ha => ⟨fun h => ?_, fun h hstep => ?_,
      fun h hstep hnodup => ?_, fun h hstep => ?_⟩⟩
  · rw [hframe]
    cases r with
    | none => rfl
    | some r => rfl
  · rw [hframe]
    dsimp only
    congr 1
    cases s.mm.port with
    | none => rfl
    | some o =>
      obtain ⟨q, op, n⟩ := o
      cases q with
      | apply => rfl
      | _ => rfl
  · have hfc : (partialReset k r s).fc = (cachePartial (completeFirst s)).fc := by rw [hframe]
    rw [dirtyCount_congr hfc, ← hhigh, hfc]
    rfl
  · exact line_partialReset k r s l
  · exact completeFirst_of_other ha h.1 h.2
  · rw [completeFirst_of_atomic ha h, if_neg (not_lt.2 hstep)]
  · rw [completeFirst_of_atomic ha h, if_pos hstep]
    have hall : ResetUpdated a s a.accepted (a.accepted.foldl (resetUpdate a) s) := (ResetUpdated.refl a s).foldl hnodup
    exact ⟨(congrArg State.mm hall.frame).trans rfl, hall.updated, hall.others, (congrArg State.fc hall.frame).trans rfl⟩
  · rw [completeFirst_of_note ha h hstep]
    refine ⟨unmapRange_frame _ _ _ _, fun f hf => ?_⟩
    rcases h with h | h
    · have hrange : s.noteRange a = ((s.slot a.slot).desc.folio, (s.slot a.slot).desc.count) := by
        rw [State.noteRange, h]
        rfl
      have hkind : ¬ a.kind = .eraseAll := by rw [h]; decide
      rw [hrange, mapEntry_unmapRange _ _ _ _ fun _ _ => hf h]
      simp only [hkind, false_or]
      rfl
    · have hrange : s.noteRange a = (0, 245760) := by
        rw [State.noteRange, h]
        rfl
      rw [hrange, if_pos (.inl h)]
      rfl

end Sys2Proof.Machine
end

section
/-! Reservations and hard faults (O42), and the freeze (O14). -/

namespace Sys2Proof.Machine

variable {s : State}

/-! ### Breaking and making reservations -/

theorem breakWhere_none {p : Rsv → Bool} (h : s.rvt.entries.filter p = []) (c : BreakCause) : breakWhere p c s = s := by
  unfold breakWhere
  rw [h]
  rfl

theorem breakWhere_last {p : Rsv → Bool} {last : Rsv} (h : (s.rvt.entries.filter p).getLast? = some last) (c : BreakCause) :
    breakWhere p c s = { s with
      rvt := { entries := s.rvt.entries.filter fun r => !p r, lost := some { cause := c, token := last.token } }
      ntc := { s.ntc with evPending := s.ntc.evPending ||| 4 } } := by
  unfold breakWhere
  rw [h]
  rfl

theorem createRsv_known {r : Rsv} (h : ∃ e ∈ s.rvt.entries, e.token = r.token) : createRsv r s =
    { s with rvt := { s.rvt with entries := (s.rvt.entries.filter fun e => e.token != r.token) ++ [r] } } := by
  unfold createRsv
  dsimp only
  rw [if_pos (by simpa using h)]

theorem createRsv_room {r : Rsv} (h : ∀ e ∈ s.rvt.entries, e.token ≠ r.token) (hroom : s.rvt.entries.length < 4) :
    createRsv r s = { s with rvt := { s.rvt with entries := s.rvt.entries ++ [r] } } := by
  unfold createRsv
  dsimp only
  rw [if_neg (by simpa using h)]
  split
  · rfl
  · rw [if_pos (show s.rvt.entries.length < Config.rvtEntries from hroom)]

theorem createRsv_evicts {r oldest : Rsv} {rest : List Rsv} (h : ∀ e ∈ s.rvt.entries, e.token ≠ r.token)
    (hlist : s.rvt.entries = oldest :: rest) (hfull : 4 ≤ s.rvt.entries.length) : createRsv r s = { s with
      rvt := { entries := rest ++ [r], lost := some { cause := .evicted, token := oldest.token } }
      ntc := { s.ntc with evPending := s.ntc.evPending ||| 4 } } := by
  unfold createRsv
  dsimp only
  rw [if_neg (by simpa using h), hlist]
  dsimp only
  rw [if_neg (show ¬ (oldest :: rest).length < Config.rvtEntries from hlist ▸ not_lt.2 hfull)]
  rfl

/-! ### Hard faults -/

theorem FaultCode.eq_of_index_eq {a b : FaultCode} (h : a.index = b.index) : a = b := by
  revert h
  cases a <;> cases b <;> simp [FaultCode.index]

theorem highestHard_eq_none (n : Ntc) : n.highestHard = none ↔ ∀ g, g ≠ .f1 → n.outstanding g = false := by
  have hfrozen := frozen_iff n
  unfold Ntc.frozen at hfrozen
  constructor
  · intro h g hg
    by_contra hout
    rw [h] at hfrozen
    exact absurd (hfrozen.2 ⟨g, hg, by simpa using hout⟩) (by decide)
  · intro h
    by_contra hne
    obtain ⟨g, hg, hout⟩ := hfrozen.1 (Option.isSome_iff_ne_none.2 hne)
    rw [h g hg] at hout
    cases hout

/-- The highest hard fault that is outstanding. -/
theorem highestHard_some {n : Ntc} {h : FaultCode} (hh : n.highestHard = some h) :
    h ≠ .f1 ∧ n.outstanding h = true ∧ ∀ g, g ≠ .f1 → n.outstanding g = true → g.index ≤ h.index := by
  unfold Ntc.highestHard at hh
  split_ifs at hh with h4 h3 h2
  all_goals cases hh
  · exact ⟨by decide, h4, fun g _ _ => by cases g <;> decide⟩
  · refine ⟨by decide, h3, fun g hg hout => ?_⟩
    cases g with
    | f4 => exact absurd hout h4
    | _ => decide
  · refine ⟨by decide, h2, fun g hg hout => ?_⟩
    cases g with
    | f4 => exact absurd hout h4
    | f3 => exact absurd hout h3
    | _ => decide

theorem raiseHard_raises {f : FaultCode} (h : ∀ g, g ≠ .f1 → s.ntc.outstanding g = true → g.index ≤ f.index) :
    raiseHard f s = raiseFault f s := by
  unfold raiseHard State.collidesWith
  cases hh : s.ntc.highestHard with
  | none => rfl
  | some g =>
    obtain ⟨hg, hout, -⟩ := highestHard_some hh
    have hle := h g hg hout
    dsimp only
    rw [if_neg (by unfold FaultCode.level; omega)]

theorem raiseHard_collides {f h : FaultCode} (hh : h ≠ .f1) (hout : s.ntc.outstanding h = true)
    (hmax : ∀ g, g ≠ .f1 → s.ntc.outstanding g = true → g.index ≤ h.index) (hlt : f.index < h.index) :
    raiseHard f s = partialReset .collision (some (h, f)) s := by
  unfold raiseHard State.collidesWith
  cases hhigh : s.ntc.highestHard with
  | none => rw [(highestHard_eq_none _).1 hhigh h hh] at hout; cases hout
  | some g =>
    obtain ⟨hg, hgout, hgmax⟩ := highestHard_some hhigh
    have heq : g = h := by
      have h1 := hmax g hg hgout
      have h2 := hgmax h hh hout
      exact FaultCode.eq_of_index_eq (le_antisymm h1 h2)
    subst heq
    dsimp only
    rw [if_pos (by unfold FaultCode.level; omega)]

/-- Settles O42. -/
theorem reservationsAreBrokenAndMade : Obligations.ReservationsAreBrokenAndMade := by
  unfold Obligations.ReservationsAreBrokenAndMade
  refine fun s => ⟨fun p c => ⟨fun h => breakWhere_none h c, fun last h => breakWhere_last h c⟩,
    fun r => ⟨createRsv_known, createRsv_room, fun oldest rest => createRsv_evicts⟩, fun f => ?_, fun f hf => ?_⟩
  · have hbit : ∀ f : FaultCode, BitVec.twoPow 4 f.index = BitVec.ofNat 4 (2 ^ f.index) := fun f => by cases f <;> rfl
    rw [← hbit]
    rfl
  · simp only [← outstanding_iff]
    exact ⟨fun h => raiseHard_raises fun g hg hout => h g ⟨hg, hout⟩,
      fun h hh hmax hlt => raiseHard_collides hh.1 hh.2 (fun g hg hout => hmax g ⟨hg, hout⟩) hlt⟩

/-! ### The freeze -/

theorem applyStepOp_frozen (hf : s.frozen = true) (bad : Bool) : applyStepOp bad s = s := by
  unfold applyStepOp
  split
  · rw [hf, if_neg (by simp)]
  · rfl

theorem wbeCaptureOp_frozen (hf : s.frozen = true) (bad : Bool) : wbeCaptureOp bad s = s := by
  unfold wbeCaptureOp State.wbeMayCapture
  rw [hf, if_neg (by simp)]

theorem chooseVictim_frozen (hf : s.frozen = true) : chooseVictim s = s := by
  unfold chooseVictim
  rw [hf, if_neg (by simp)]

theorem sleepComplete_frozen (hf : s.frozen = true) : sleepComplete s = s := by
  unfold sleepComplete State.sleepReady
  split
  · rw [hf, if_neg (by simp)]
  · rfl

theorem portGrant_frozen (hf : s.frozen = true) : portGrant s = if s.portOpen then (grantApply s).getD s else s := by
  unfold portGrant grantFirst
  rw [if_pos hf, if_pos hf]

/-- Settles O14. -/
theorem freezeStopsTheEngines : Obligations.FreezeStopsTheEngines := by
  unfold Obligations.FreezeStopsTheEngines
  intro s hrest hf
  refine ⟨fun bad => ?_, fun bad => ?_, ?_, ?_, ?_, fun u hu => ?_⟩
  · change Host.Outcome.next (endUnit (applyStepOp bad (caughtUp s))) = _
    rw [caughtUp_atRest hrest, applyStepOp_frozen hf]
  · change Host.Outcome.next (endUnit (wbeCaptureOp bad (caughtUp s))) = _
    rw [caughtUp_atRest hrest, wbeCaptureOp_frozen hf]
  · change Host.Outcome.next (endUnit (chooseVictim (caughtUp s))) = _
    rw [caughtUp_atRest hrest, chooseVictim_frozen hf]
  · change Host.Outcome.next (endUnit (sleepComplete (caughtUp s))) = _
    rw [caughtUp_atRest hrest, sleepComplete_frozen hf]
  · change Host.Outcome.next (endUnit (portGrant (caughtUp s))) = _
    rw [caughtUp_atRest hrest, portGrant_frozen hf]
  · unfold grantApply at hu
    cases ha : s.csq.apply with
    | none => rw [ha] at hu; cases hu
    | some a =>
      rw [ha] at hu
      dsimp only at hu
      cases hw : a.wait with
      | forMedia r => exact ⟨a, r, rfl, hw⟩
      | _ => rw [hw] at hu; cases hu

end Sys2Proof.Machine
end

section
/-!
The reservation table stands wherever reservations and faults are not concerned, one lemma per operation, as for the CSQ; from
these, that register accesses, the data port, tickets and copies leave it alone (O15).
-/

namespace Sys2Proof.Machine

/-! ### Slots, buffers and the end of a unit -/

@[simp] theorem reject_rvt (r : RejectReason) (a b : Byte) (s : State) : (reject r a b s).rvt = s.rvt := by rw [reject_frame]

@[simp] theorem badValue_rvt (a : Byte) (s : State) : (badValue a s).rvt = s.rvt := reject_rvt _ _ _ _

@[simp] theorem setBuf_rvt (b : BufId) (x : Buffer) (s : State) : (setBuf b x s).rvt = s.rvt := by rw [setBuf_frame]

@[simp] theorem completeSlot_rvt (n : Fin 8) (st : Status) (k : Nat) (s : State) : (completeSlot n st k s).rvt = s.rvt := by
  rw [completeSlot_frame]

@[simp] theorem finishApply_rvt (n : Fin 8) (st : Status) (k : Nat) (s : State) : (finishApply n st k s).rvt = s.rvt := by
  rw [finishApply_frame]

@[simp] theorem settleSlots_rvt (s : State) : (settleSlots s).rvt = s.rvt := by rw [settleSlots_frame]

@[simp] theorem assignOne_rvt (s : State) : (assignOne s).rvt = s.rvt := by rw [assignOne_frame]

@[simp] theorem chooseOwner_rvt (s : State) : (chooseOwner s).rvt = s.rvt := by rw [chooseOwner_frame]

@[simp] theorem evalMedia_rvt (s : State) : (evalMedia s).rvt = s.rvt := by rw [evalMedia_frame]

@[simp] theorem releaseRetry_rvt (s : State) : (releaseRetry s).rvt = s.rvt := by rw [releaseRetry_frame]

@[simp] theorem settleMediaPower_rvt (s : State) : (settleMediaPower s).rvt = s.rvt := by rw [settleMediaPower_frame]

@[simp] theorem endUnit_rvt (s : State) : (endUnit s).rvt = s.rvt := by simp [endUnit, assignBuffers]

/-! ### The media -/

@[simp] theorem offerData_rvt (f : Nat) (q : Word) (l : Loc) (s : State) : (offerData f q l s).rvt = s.rvt := by
  rw [offerData_frame]

@[simp] theorem landProgram_rvt (l : Loc) (p : Prog) (s : State) : (landProgram l p s).rvt = s.rvt := by
  rw [landProgram_frame]

@[simp] theorem tearProgram_rvt (l : Loc) (p : Prog) (s : State) : (tearProgram l p s).rvt = s.rvt := by
  rw [tearProgram_frame]

@[simp] theorem failProgram_rvt (o : Origin) (l : Loc) (p : Prog) (s : State) : (failProgram o l p s).rvt = s.rvt := by
  rw [failProgram_frame]

@[simp] theorem programLost_rvt (o : Origin) (q : Requester) (l : Loc) (p : Prog) (s : State) :
    (programLost o q l p s).rvt = s.rvt := by
  unfold programLost
  split <;> simp

@[simp] theorem reserveFell_rvt (s : State) : (reserveFell s).rvt = s.rvt := by rw [reserveFell_frame]

@[simp] theorem retireGroup_rvt (g : Nat) (o : Origin) (s : State) : (retireGroup g o s).rvt = s.rvt := by
  rw [retireGroup_frame]

@[simp] theorem failErase_rvt (g : Nat) (o : Origin) (s : State) : (failErase g o s).rvt = s.rvt := by simp [failErase]

@[simp] theorem reclaimProgress_rvt (s : State) : (reclaimProgress s).rvt = s.rvt := by
  unfold reclaimProgress
  dsimp only
  repeat' split
  all_goals simp

@[simp] theorem mountGroup_rvt (g : Nat) (s : State) : (mountGroup g s).rvt = s.rvt := by
  unfold mountGroup
  dsimp only
  repeat' split
  all_goals rfl

@[simp] theorem atomicOffers_rvt (k : Nat) (b : Word) (ls : List (Nat × Loc)) (acc : List Nat) (s : State) :
    (atomicOffers k b ls (acc, s)).2.rvt = s.rvt := by
  induction ls generalizing acc s with
  | nil => rfl
  | cons p ls ih => exact (ih _ _).trans (offerData_rvt _ _ _ s)

/-! ### Lines, tickets and copies -/

@[simp] theorem givePartial_rvt (m : Option (Fin 8)) (s : State) : (givePartial m s).rvt = s.rvt := by cases m <;> rfl

@[simp] theorem invalidate_rvt (l : Fin 32) (s : State) : (invalidate l s).rvt = s.rvt := rfl

@[simp] theorem cacheUpdate_rvt (f : Nat) (d : FolioData) (s : State) : (cacheUpdate f d s).rvt = s.rvt := by
  rw [cacheUpdate_frame]

@[simp] theorem dropStale_rvt (t : Ticket) (s : State) : (dropStale t s).rvt = s.rvt := by
  unfold dropStale
  repeat' split
  all_goals rfl

@[simp] theorem purgeLine_rvt (l : Fin 32) (s : State) : (purgeLine l s).rvt = s.rvt := by
  unfold purgeLine
  split <;> rfl

@[simp] theorem settleOwnLine_rvt (t : Ticket) (s : State) : (settleOwnLine t s).rvt = s.rvt := by
  unfold settleOwnLine
  dsimp only
  repeat' split
  all_goals simp

@[simp] theorem settleTicket_rvt (t : Ticket) (l : Loc) (s : State) : (settleTicket t l s).rvt = s.rvt := by
  unfold settleTicket
  dsimp only
  rw [satisfyTriples_rvt]
  split
  · rfl
  · rw [settleOwnLine_rvt]
    split <;> simp

@[simp] theorem wbeCaptureOp_rvt (s : State) : (wbeCaptureOp false s).rvt = s.rvt := by
  unfold wbeCaptureOp
  simp only [Bool.false_eq_true, if_false]
  repeat' split
  all_goals rfl

@[simp] theorem ticketLanded_rvt (s : State) : (ticketLanded s).rvt = s.rvt := by
  unfold ticketLanded
  repeat' split
  all_goals simp

@[simp] theorem advanceWrite_rvt (a : Apply) (s : State) : (advanceWrite a s).rvt = s.rvt := by
  unfold advanceWrite finishCount
  split <;> simp

@[simp] theorem throughLanded_rvt (a : Apply) (l : Loc) (p : Prog) (s : State) : (throughLanded a l p s).rvt = s.rvt := by
  simp only [throughLanded, advanceWrite_rvt, modSlot_rvt]
  split <;> simp

@[simp] theorem commitLanded_rvt (a : Apply) (l : Loc) (p : Prog) (s : State) : (commitLanded a l p s).rvt = s.rvt := by
  unfold commitLanded finishCount
  dsimp only
  split <;> simp

@[simp] theorem applyLanded_rvt (l : Loc) (p : Prog) (s : State) : (applyLanded l p s).rvt = s.rvt := by
  unfold applyLanded atomicLanded
  repeat' split
  all_goals simp

@[simp] theorem programComplete_rvt (s : State) : (programComplete s).rvt = s.rvt := by
  unfold programComplete
  repeat' split
  all_goals simp

@[simp] theorem programFailed_rvt (s : State) : (programFailed s).rvt = s.rvt := by
  unfold programFailed
  repeat' split
  all_goals simp

@[simp] theorem chooseVictim_rvt (s : State) : (chooseVictim s).rvt = s.rvt := by
  unfold chooseVictim
  repeat' split
  all_goals simp

@[simp] theorem reclaimCopied_rvt (s : State) : (reclaimCopied s).rvt = s.rvt := by
  unfold reclaimCopied
  repeat' split
  all_goals simp

@[simp] theorem reclaimErased_rvt (b : Bool) (s : State) : (reclaimErased b s).rvt = s.rvt := by
  unfold reclaimErased
  repeat' split
  all_goals simp

@[simp] theorem relocationCopied_rvt (s : State) : (relocationCopied s).rvt = s.rvt := by
  unfold relocationCopied
  dsimp only
  repeat' split
  all_goals simp

/-! ### The host port -/

@[simp] theorem frameStartOp_rvt (s : State) : (frameStartOp s).rvt = s.rvt := by
  unfold frameStartOp
  split <;> rfl

@[simp] theorem typeDecode_rvt (b : Byte) (a : WordAddr) (k : Byte) (s : State) : (typeDecode b a k s).rvt = s.rvt := by
  unfold typeDecode beginBurst
  repeat' split
  all_goals simp

@[simp] theorem pollWord_rvt (s : State) : (pollWord s).rvt = s.rvt := by
  unfold pollWord clockPast
  repeat' split
  all_goals rfl

@[simp] theorem frameEndOp_rvt (s : State) : (frameEndOp s).rvt = s.rvt := by
  unfold frameEndOp
  split <;> rfl

@[simp] theorem takeSnapshot_rvt (s : State) : (takeSnapshot s).rvt = s.rvt := by
  unfold takeSnapshot
  split <;> rfl

/-- The capture of a word whose check finds nothing. -/
@[simp] theorem captureOp_rvt (s : State) : (captureOp false s).rvt = s.rvt := by
  have hgood : s.badCapture false = none := if_neg (by simp)
  unfold captureOp
  rw [hgood]
  dsimp only
  repeat' split
  · rfl
  · exact takeSnapshot_rvt s
  · rfl
  · rfl

@[simp] theorem bumpConsumed_rvt (n : Fin 8) (s : State) : (bumpConsumed n s).rvt = s.rvt := by
  unfold bumpConsumed
  split <;> simp

@[simp] theorem appendWord_rvt (n : Fin 8) (w : Word) (s : State) : (appendWord n w s).rvt = s.rvt := by
  unfold appendWord
  split <;> simp

@[simp] theorem consumeData_rvt (s : State) : (consumeData s).rvt = s.rvt := by
  unfold consumeData
  dsimp only
  repeat' split
  all_goals simp

@[simp] theorem applyEffect_rvt (e : ReadEffect) (s : State) : (applyEffect e s).rvt = s.rvt := by
  cases e <;> simp [applyEffect]

@[simp] theorem completeWord_rvt (p : WordAddr → Bool) (s : State) : (completeWord p s).rvt = s.rvt := by
  unfold completeWord
  repeat' split
  all_goals simp

/-! ### Written registers -/

@[simp] theorem wakeCause_rvt (s : State) : (wakeCause s).rvt = s.rvt := by rw [wakeCause_spec]

@[simp] theorem wakeAction_rvt (s : State) : (wakeAction s).rvt = s.rvt := by
  unfold wakeAction
  split <;> simp

@[simp] theorem submitWrite_rvt (w : Word) (s : State) : (submitWrite w s).rvt = s.rvt := by
  unfold submitWrite
  repeat' split
  all_goals simp [acceptCommand, submitPower]

@[simp] theorem abortWrite_rvt (w : Word) (s : State) : (abortWrite w s).rvt = s.rvt := by
  unfold abortWrite abortSlot dropMarks
  repeat' split
  all_goals simp

@[simp] theorem retireWrite_rvt (w : Word) (s : State) : (retireWrite w s).rvt = s.rvt := by
  unfold retireWrite retireHead
  repeat' split
  all_goals simp

@[simp] theorem dataWrite_rvt (w : Word) (s : State) : (dataWrite w s).rvt = s.rvt := by
  unfold dataWrite storeWord
  dsimp only
  repeat' split
  all_goals simp

@[simp] theorem evPendingWrite_rvt (w : Word) (s : State) : (evPendingWrite w s).rvt = s.rvt := by
  unfold evPendingWrite
  split <;> simp

@[simp] theorem evEnableWrite_rvt (w : Word) (s : State) : (evEnableWrite w s).rvt = s.rvt := by
  unfold evEnableWrite
  split <;> simp

@[simp] theorem evLevelWrite_rvt (w : Word) (s : State) : (evLevelWrite w s).rvt = s.rvt := by
  unfold evLevelWrite
  split <;> simp

@[simp] theorem faultPendingWrite_rvt (w : Word) (s : State) : (faultPendingWrite w s).rvt = s.rvt := by
  unfold faultPendingWrite
  split <;> simp

@[simp] theorem endOp_rvt (w : Word) (s : State) : (endOp w s).rvt = s.rvt := by
  unfold endOp
  repeat' split
  all_goals simp

@[simp] theorem serviceOp_rvt (w : Word) (s : State) : (serviceOp w s).rvt = s.rvt := by
  unfold serviceOp
  split <;> simp

@[simp] theorem ntcConfigWrite_rvt (w : Word) (s : State) : (ntcConfigWrite w s).rvt = s.rvt := by
  unfold ntcConfigWrite
  split <;> simp

@[simp] theorem quietOp_rvt (w : Word) (s : State) : (quietOp w s).rvt = s.rvt := by
  unfold quietOp
  dsimp only
  repeat' split
  all_goals simp

@[simp] theorem coalesceOp_rvt (w : Word) (s : State) : (coalesceOp w s).rvt = s.rvt := by
  unfold coalesceOp
  dsimp only
  repeat' split
  all_goals simp

@[simp] theorem cachePolicyOp_rvt (w : Word) (s : State) : (cachePolicyOp w s).rvt = s.rvt := by
  unfold cachePolicyOp
  split <;> simp

@[simp] theorem dozeDelayOp_rvt (w : Word) (s : State) : (dozeDelayOp w s).rvt = s.rvt := by
  unfold dozeDelayOp armIntent
  dsimp only
  repeat' split
  all_goals simp

@[simp] theorem rejectLogOp_rvt (w : Word) (s : State) : (rejectLogOp w s).rvt = s.rvt := by
  unfold rejectLogOp
  repeat' split
  all_goals simp

@[simp] theorem cdOp_rvt (n : Fin 4) (w : Word) (s : State) : (cdOp n w s).rvt = s.rvt := by
  unfold cdOp
  split <;> simp

/-- Only the word 1 makes PORT_CONFIG a reset. -/
theorem portConfigOp_rvt {w : Word} (hw : w ≠ 1) (s : State) : (portConfigOp w s).rvt = s.rvt := by
  unfold portConfigOp startMount
  rw [show clearIn 0xFFFFFFFE w = decide (w.toNat < 2) from clearIn_above_eq (n := 1) (by decide)]
  by_cases hlarge : w.toNat < 2
  · have hzero : w = 0 := by
      have hone : w.toNat ≠ 1 := fun h => hw (BitVec.eq_of_toNat_eq h)
      exact BitVec.eq_of_toNat_eq (y := 0) (by simpa using (by omega : w.toNat = 0))
    subst hzero
    rw [if_neg (by decide), if_neg (by decide)]
    split <;> simp
  · rw [if_pos (by simpa using hlarge)]
    exact badValue_rvt _ _

/-- Only a legal word with CRST makes HOST_CONTROL a reset. -/
theorem hostControlOp_rvt {w : Word} (hw : ¬(w.getLsbD 2 = true ∧ w.toNat < 8)) (s : State) :
    (hostControlOp w s).rvt = s.rvt := by
  unfold hostControlOp
  rw [show clearIn 0xFFFFFFF8 w = decide (w.toNat < 8) from clearIn_above_eq (n := 3) (by decide)]
  by_cases hlegal : w.toNat < 8
  · rw [if_neg (by simpa using hlegal), if_neg fun h => hw ⟨h, hlegal⟩]
    split <;> simp
  · rw [if_pos (by simpa using hlegal)]
    exact badValue_rvt _ _

theorem writeReg_rvt {r : Reg} {w : Word} (hport : r = .portConfig → w ≠ 1)
    (hcontrol : r = .hostControl → ¬(w.getLsbD 2 = true ∧ w.toNat < 8)) (s : State) : (writeReg r w s).rvt = s.rvt := by
  unfold writeReg
  split
  case h_3 => exact portConfigOp_rvt (hport rfl) s
  case h_4 => exact hostControlOp_rvt (hcontrol rfl) s
  all_goals simp

theorem regOf_portConfig {a : WordAddr} (h : regOf a = some .portConfig) : a = 0x02 := by
  unfold regOf at h
  split at h
  · cases h
  · have hmem : (a.toNat, Reg.portConfig) ∈ regTable := (sparseGet_eq_some (by decide)).1 h
    have hkey : ∀ p ∈ regTable, p.2 = .portConfig → p.1 = 0x02 := by decide
    exact BitVec.eq_of_toNat_eq (hkey _ hmem rfl)

theorem regOf_hostControl {a : WordAddr} (h : regOf a = some .hostControl) : a = 0x03 := by
  unfold regOf at h
  split at h
  · cases h
  · have hmem : (a.toNat, Reg.hostControl) ∈ regTable := (sparseGet_eq_some (by decide)).1 h
    have hkey : ∀ p ∈ regTable, p.2 = .hostControl → p.1 = 0x03 := by decide
    exact BitVec.eq_of_toNat_eq (hkey _ hmem rfl)

theorem writeAddr_rvt {a : WordAddr} {w : Word} (hport : a = 0x02 → w ≠ 1)
    (hcontrol : a = 0x03 → ¬(w.getLsbD 2 = true ∧ w.toNat < 8)) (s : State) : (writeAddr a w s).rvt = s.rvt := by
  unfold writeAddr
  split
  · next r hr =>
    exact writeReg_rvt (fun h => hport (regOf_portConfig (h ▸ hr))) (fun h => hcontrol (regOf_hostControl (h ▸ hr))) s
  · rfl

/-- A write word whose act leaves the reservation table leaves it. -/
theorem writeAt_rvt {f : State → State} (hf : ∀ s, (f s).rvt = s.rvt) (a : WordAddr) (s : State) :
    (writeAt a f s).rvt = s.rvt := by
  unfold writeAt
  dsimp only
  split
  · rw [endUnit_rvt]
    split
    · rfl
    · rw [hf]
  · rfl

/-! ### The statement -/

section
variable {s t : State}

/-- A command that acts by an operation that leaves the reservation table. -/
theorem rvt_of_op {c : Instr} {f : State → State} (hc : exec c s = .next (f (caughtUp s))) (hf : ∀ u, (f u).rvt = u.rvt)
    (hrest : s.AtRest) (h : exec c s = .next t) : t.rvt = s.rvt := by
  rw [hc, caughtUp_atRest hrest] at h
  rw [← Host.Outcome.next.inj h, hf]

theorem rvt_of_unit {c : Instr} {f : State → State} (hc : exec c s = .next (endUnit (f (caughtUp s))))
    (hf : ∀ u, (f u).rvt = u.rvt) (hrest : s.AtRest) (h : exec c s = .next t) : t.rvt = s.rvt :=
  rvt_of_op (f := fun u => endUnit (f u)) hc (fun u => (endUnit_rvt _).trans (hf u)) hrest h

theorem rvt_of_write {c : Instr} {a : WordAddr} {f : State → State} (hc : exec c s = .next (writeAt a f (caughtUp s)))
    (hf : ∀ u, (f u).rvt = u.rvt) (hrest : s.AtRest) (h : exec c s = .next t) : t.rvt = s.rvt :=
  rvt_of_op (f := writeAt a f) hc (writeAt_rvt hf a) hrest h

end

/-- Settles O15. -/
theorem reservationsSurviveOtherWork : Obligations.ReservationsSurviveOtherWork := by
  unfold Obligations.ReservationsSurviveOtherWork
  intro c s t hrest h hc
  simp only [List.mem_cons, List.not_mem_nil, or_false] at hc
  rcases hc with hc | ⟨b, a, l, rfl⟩ | ⟨ok, rfl⟩ | ⟨n, w, rfl⟩ | ⟨w, hc⟩
  · rcases hc with rfl | rfl | rfl | rfl | rfl | rfl | rfl | rfl | rfl | rfl | rfl | rfl | rfl | rfl
    · exact rvt_of_op rfl pollWord_rvt hrest h
    · exact rvt_of_op rfl frameEndOp_rvt hrest h
    · exact rvt_of_unit rfl captureOp_rvt hrest h
    · exact rvt_of_op rfl (completeWord_rvt _) hrest h
    · exact rvt_of_unit rfl programComplete_rvt hrest h
    · exact rvt_of_unit rfl programFailed_rvt hrest h
    · exact rvt_of_unit rfl wbeCaptureOp_rvt hrest h
    · exact rvt_of_unit rfl ticketLanded_rvt hrest h
    · exact rvt_of_op rfl (completeWord_rvt _) hrest h
    · exact rvt_of_unit rfl chooseVictim_rvt hrest h
    · exact rvt_of_unit rfl reclaimCopied_rvt hrest h
    · exact rvt_of_unit rfl relocationCopied_rvt hrest h
    · exact rvt_of_op rfl frameStartOp_rvt hrest h
    · exact rvt_of_unit rfl (f := mediaReadyOp) (fun u => by unfold mediaReadyOp; split <;> rfl) hrest h
  · exact rvt_of_unit rfl (typeDecode_rvt b a l) hrest h
  · exact rvt_of_unit rfl (reclaimErased_rvt ok) hrest h
  · exact rvt_of_write rfl (cdOp_rvt n w) hrest h
  · rcases hc with hc | ⟨a, rfl⟩ | ⟨hw, hc⟩ | ⟨hw, hc⟩ | ⟨a, rfl, hport, hcontrol⟩
    · rcases hc with rfl | rfl | rfl | rfl | rfl | rfl | rfl | rfl | rfl | rfl | rfl | rfl
      · exact rvt_of_write rfl (rejectLogOp_rvt w) hrest h
      · exact rvt_of_write rfl (submitWrite_rvt w) hrest h
      · exact rvt_of_write rfl (abortWrite_rvt w) hrest h
      · exact rvt_of_write rfl (retireWrite_rvt w) hrest h
      · exact rvt_of_write rfl (evPendingWrite_rvt w) hrest h
      · exact rvt_of_write rfl (faultPendingWrite_rvt w) hrest h
      · exact rvt_of_write rfl (endOp_rvt w) hrest h
      · exact rvt_of_write rfl (serviceOp_rvt w) hrest h
      · exact rvt_of_write rfl (quietOp_rvt w) hrest h
      · exact rvt_of_write rfl (coalesceOp_rvt w) hrest h
      · exact rvt_of_write rfl (cachePolicyOp_rvt w) hrest h
      · exact rvt_of_write rfl (dozeDelayOp_rvt w) hrest h
    · refine rvt_of_op (f := fun u => if isDataPortAddr a then writeAt a (dataWrite w) u else u) rfl (fun u => ?_) hrest h
      split
      · exact writeAt_rvt (dataWrite_rvt w) a u
      · rfl
    · rcases hc with rfl | rfl
      · exact rvt_of_write rfl (portConfigOp_rvt hw) hrest h
      · exact rvt_of_write rfl (portConfigOp_rvt hw) hrest h
    · rcases hc with rfl | rfl | rfl
      · exact rvt_of_write rfl (hostControlOp_rvt hw) hrest h
      · exact rvt_of_write rfl (hostControlOp_rvt hw) hrest h
      · exact rvt_of_write rfl (hostControlOp_rvt hw) hrest h
    · exact rvt_of_write rfl (writeAddr_rvt hport hcontrol) hrest h

end Sys2Proof.Machine
end

section
/-!
Performing what is due leaves nothing due (O4): each due step starts one of the slots that wait, or ends a wait of the apply
in progress, or enters DOZE, and no unit makes a slot wait again. With it, that every other command acts on the state with
what is due performed (O3).
-/

namespace Sys2Proof.Machine

variable {s t : State} {n : Fin 8} {a : Apply} {P : Fin 8 → Prop} {p : Apply → Prop}

/-- Only slots in `P` are not yet applied, and the apply in progress, if any, is as `p` says. -/
structure Calm (P : Fin 8 → Prop) (p : Apply → Prop) (s : State) : Prop where
  slots : ∀ n, s.unapplied n = true → P n
  waits : ∀ a, s.csq.apply = some a → p a

namespace Calm

theorem of_csq (h : Calm P p s) (hcsq : t.csq = s.csq) : Calm P p t := by
  refine ⟨fun n hn => h.slots n ?_, fun a ha => h.waits a (hcsq ▸ ha)⟩
  unfold State.unapplied State.slot at hn ⊢
  rwa [hcsq] at hn

theorem leaves (h : Calm P p s) (hn : s.unapplied n = false) : Calm (fun m => P m ∧ m ≠ n) p s :=
  ⟨fun m hm => ⟨h.slots m hm, fun he => by rw [he, hn] at hm; cases hm⟩, h.waits⟩

theorem weaken (h : Calm P p s) {q : Apply → Prop} (hq : ∀ a, p a → q a) : Calm P q s :=
  ⟨h.slots, fun a ha => hq a (h.waits a ha)⟩

theorem noApply (h : Calm P p s) (ha : s.csq.apply = none) (q : Apply → Prop) : Calm P q s :=
  ⟨h.slots, fun a hs => by rw [ha] at hs; cases hs⟩

/-! ### Slots and buffers -/

theorem setSlot (h : Calm P p s) (x : Slot) (hx : x.state ≠ .queued ∧ x.state ≠ .loading ∧ x.state ≠ .loaded) :
    Calm P p (setSlot n x s) := by
  refine ⟨fun m hm => h.slots m ?_, h.waits⟩
  unfold State.unapplied at hm ⊢
  rw [slot_setSlot] at hm
  by_cases he : m = n
  · rw [if_pos he] at hm
    simp [hx.1, hx.2.1, hx.2.2] at hm
  · rwa [if_neg he] at hm

theorem modSlot {f : Slot → Slot} (h : Calm P p s) (hf : ∀ x, (f x).state = x.state) : Calm P p (modSlot n f s) := by
  refine ⟨fun m hm => h.slots m ?_, h.waits⟩
  unfold State.unapplied at hm ⊢
  rw [slot_modSlot] at hm
  by_cases he : m = n
  · rw [if_pos he, hf, ← he] at hm
    exact hm
  · rwa [if_neg he] at hm

theorem mapSlots {f : Slot → Slot} (h : Calm P p s) (hf : ∀ x, (f x).state = x.state) : Calm P p (mapSlots f s) := by
  refine ⟨fun m hm => h.slots m ?_, h.waits⟩
  unfold State.unapplied at hm ⊢
  rwa [slot_mapSlots, hf] at hm

theorem setApply (h : Calm P p s) {q : Apply → Prop} {o : Option Apply} (ho : ∀ a, o = some a → q a) :
    Calm P q (setApply o s) := ⟨h.slots, ho⟩

theorem completeSlot (h : Calm P p s) (n : Fin 8) (st : Status) (k : Nat) :
    Calm (fun m => P m ∧ m ≠ n) p (completeSlot n st k s) := by
  have hstate (m : Fin 8) : ((Machine.completeSlot n st k s).slot m).state = if m = n then .done else (s.slot m).state := by
    have hmove := congrArg (fun g => g.state m) (completeSlot_agreement n st k s)
    exact hmove.trans (Function.update_apply _ _ _ _)
  refine ⟨fun m hm => ?_, fun a ha => ?_⟩
  · unfold State.unapplied at hm
    rw [hstate] at hm
    by_cases he : m = n
    · rw [if_pos he] at hm
      cases hm
    · rw [if_neg he] at hm
      exact ⟨h.slots m hm, he⟩
  · rw [completeSlot_eq] at ha
    have happly : (if s.csq.apply.any (fun a => a.slot == n) then none else s.csq.apply) = some a := by
      rw [countCompletion_frame] at ha
      exact ha
    split at happly
    · cases happly
    · exact h.waits a happly

theorem completes (h : Calm P p s) (n : Fin 8) (st : Status) (k : Nat) : Calm P p (Machine.completeSlot n st k s) :=
  ⟨fun m hm => ((h.completeSlot n st k).slots m hm).1, (h.completeSlot n st k).waits⟩

theorem foldl {α : Type} {f : State → α → State} (hf : ∀ s x, Calm P p s → Calm P p (f s x)) (l : List α) (h : Calm P p s) :
    Calm P p (l.foldl f s) := by
  induction l generalizing s with
  | nil => exact h
  | cons x l ih => exact ih (hf s x h)

theorem settleSlot (h : Calm P p s) (n : Fin 8) : Calm P p (settleSlot n s) := by
  unfold Machine.settleSlot
  split
  · exact h.completes n _ _
  · exact h

theorem settleSlots (h : Calm P p s) : Calm P p (settleSlots s) := by
  refine foldl (fun u m hu => ?_) _ (foldl (fun u m hu => ?_) _ h)
  · split
    · exact hu.settleSlot m
    · exact hu
  · split
    · exact hu
    · exact hu.settleSlot m

theorem finishApply (h : Calm P p s) (n : Fin 8) (st : Status) (k : Nat) : Calm P p (Machine.finishApply n st k s) :=
  h.settleSlots.completes n st k

/-! ### The end of a unit -/

theorem releaseRetry (h : Calm P p s) (hp : ∀ a b, p a → p { a with heldRetry := b }) : Calm P p (releaseRetry s) := by
  unfold Machine.releaseRetry
  split
  · next a ha =>
    split
    · exact h.setApply fun b hb => by cases hb; exact hp a _ (h.waits a ha)
    · exact h
  · exact h

theorem setBuf (h : Calm P p s) (b : BufId) (x : Buffer) : Calm P p (setBuf b x s) := h.of_csq (setBuf_csq b x s)

theorem assignOne (h : Calm P p s) : Calm P p (assignOne s) := by
  unfold Machine.assignOne
  split
  · exact h
  · split
    · next b m hb hm =>
      obtain ⟨-, -, hqueued, -⟩ := nextForBuffer_spec hm
      dsimp only
      split
      · refine ⟨fun i hi => ?_, (h.setBuf b _).waits⟩
        have hslot : (Machine.setBuf b { holder := some m, words := [], consumed := 0 } s).slot i = s.slot i := by
          cases b <;> rfl
        refine h.slots i ?_
        unfold State.unapplied at hi ⊢
        rw [slot_modSlot, hslot] at hi
        by_cases he : i = m
        · rw [he, hqueued]
          rfl
        · rwa [if_neg he] at hi
      · exact h.setBuf b _
    · exact h

theorem endUnit (h : Calm P p s) (hp : ∀ a b, p a → p { a with heldRetry := b }) : Calm P p (endUnit s) := by
  have hmedia : Calm P p (evalDraining (evalMedia (Machine.releaseRetry s))) := (h.releaseRetry hp).of_csq (by simp)
  have hassigned := hmedia.assignOne.assignOne
  exact hassigned.settleSlots.of_csq (by simp [Machine.endUnit, assignBuffers])

/-! ### The start of a command -/

/-- The slot leaves the waiting ones for a state of its apply. -/
theorem moves (h : Calm P p s) (n : Fin 8) (x : SlotState) (hx : x ≠ .queued ∧ x ≠ .loading ∧ x ≠ .loaded) :
    Calm (fun m => P m ∧ m ≠ n) p (Machine.modSlot n (fun sl => { sl with state := x }) s) := by
  refine (h.setSlot (n := n) { s.slot n with state := x } hx).leaves ?_
  unfold State.unapplied
  rw [slot_setSlot_self]
  simp [hx]

theorem enterApply (h : Calm P p s) (n : Fin 8) (k : StartKind) {w : Wait} {q : Apply → Prop} (hw : ∀ a, a.wait = w → q a) :
    Calm (fun m => P m ∧ m ≠ n) q (enterApply n k w s) :=
  (h.moves n .applying (by decide)).setApply fun a ha => by cases ha; exact hw _ rfl

theorem endSettling (h : Calm P p s) (n : Fin 8) : Calm (fun m => P m ∧ m ≠ n) p (endSettling n s) :=
  (h.moves n .settling (by decide)).settleSlots

theorem setDetail (h : Calm P p s) (n : Fin 8) (v : Word) : Calm P p (Machine.modSlot n (fun sl => { sl with detail := v }) s) :=
  h.modSlot fun _ => rfl

theorem endPlacing (h : Calm P p s) (n : Fin 8) : Calm (fun m => P m ∧ m ≠ n) p (endPlacing n s) := by
  unfold Machine.endPlacing
  dsimp only
  split
  · exact h.settleSlots.completeSlot n _ _
  · have hplaced : Calm (fun m => P m ∧ m ≠ n) p
        (Machine.modSlot n (fun sl => { sl with state := .unloading }) (Machine.setApply none s)) :=
      (h.setApply (o := none) nofun).moves n .unloading (by decide)
    split
    · exact (hplaced.of_csq (createRsv_csq _ _)).modSlot fun _ => rfl
    · exact hplaced

theorem satisfyTriples (h : Calm P p s) (f : Triple → Bool) : Calm P p (satisfyTriples f s) := h.mapSlots fun _ => rfl

theorem givePartial (h : Calm P p s) (m : Option (Fin 8)) : Calm P p (givePartial m s) := by
  unfold Machine.givePartial
  split
  · exact h.modSlot fun _ => rfl
  · exact h

theorem invalidate (h : Calm P p s) (l : Fin 32) : Calm P p (invalidate l s) :=
  (h.of_csq (t := unlist l (setLine l { s.line l with state := .invalid, purgeMark := none, data := [] } s)) rfl).satisfyTriples _

theorem purgeExamine (h : Calm P p s) (n : Fin 8) (l : Fin 32) : Calm P p (purgeExamine n l s) := by
  unfold Machine.purgeExamine
  dsimp only
  split
  · exact (h.invalidate l).modSlot fun _ => rfl
  · exact (h.givePartial _).of_csq rfl
  · exact h
  · exact h

theorem commitWrite (h : Calm P p s) (n : Fin 8) (k : StartKind) (hb : ∀ a, a.wait = .between → p a) :
    Calm (fun m => P m ∧ m ≠ n) p (commitWrite n k s) := by
  unfold Machine.commitWrite
  dsimp only
  split
  · exact h.completeSlot n _ _
  · split
    · exact h.completeSlot n _ _
    · exact (h.enterApply n k hb).of_csq (by simp [beginApply])

theorem commitRecord (h : Calm P p s) (n : Fin 8) (v : Word) (d : FolioData) :
    Calm (fun m => P m ∧ m ≠ n) p (commitRecord n v d s) :=
  ((h.setDetail n v).of_csq (placeFolio_csq n d _)).endPlacing n

/-- A started slot waits no longer, and its apply, if there is one, goes on with its next step or waits as a SLEEP does. -/
theorem startSlot (h : Calm P p s) (n : Fin 8) (hb : ∀ a, a.wait = .between → p a) (hs : ∀ a, a.wait = .forSleep → p a) :
    Calm (fun m => P m ∧ m ≠ n) p (startSlot n false s) := by
  have hbegin (k : StartKind) : Calm (fun m => P m ∧ m ≠ n) p (beginApply n k s) := h.enterApply n k hb
  unfold Machine.startSlot
  split
  case h_1 => exact hbegin .read
  case h_2 | h_3 | h_4 => exact h.commitWrite n _ hb
  case h_5 =>
    unfold commitTrim
    dsimp only
    split
    · exact h.completeSlot n _ _
    · exact (hbegin .trim).of_csq (breakWhere_csq _ _ _)
  case h_6 => exact hbegin .prefetch
  case h_7 => exact (hbegin .discard).of_csq (breakWhere_csq _ _ _)
  case h_8 | h_9 | h_11 =>
    refine endSettling (modSlot h ?_) n
    exact fun _ => rfl
  case h_10 =>
    refine endSettling (modSlot (foldl (fun u l hu => hu.purgeExamine n l) _ h) ?_) n
    exact fun _ => rfl
  case h_12 | h_13 | h_14 => exact h.commitRecord n _ _
  case h_15 => exact (h.setDetail n _).enterApply n .sleep hs
  case h_16 =>
    unfold commitEraseAll
    split
    · exact h.completeSlot n _ _
    · exact (hbegin .eraseAll).of_csq (breakWhere_csq _ _ _)

/-! ### The end of a wait -/

section
variable {q : Apply → Prop}

theorem nextStep (h : Calm P p s) (a : Apply) (hb : ∀ a, a.wait = .between → q a) : Calm P q (nextStep a s) :=
  h.setApply fun b hb' => by cases hb'; exact hb _ rfl

theorem requestMedia (h : Calm P p s) (a : Apply) (r : MediaReq) (hm : ∀ a r, a.wait = .forMedia r → q a) :
    Calm P q (requestMedia a r s) := h.setApply fun b hb => by cases hb; exact hm _ _ rfl

/-- The end of the apply in progress leaves none. -/
theorem finished (h : Calm P p s) (hp : ∀ b, p b → b.slot = n) (st : Status) (k : Nat) :
    Calm P q (Machine.finishApply n st k s) := by
  refine ⟨(h.finishApply n st k).slots, fun b hb => ?_⟩
  have hslot := hp b ((h.finishApply n st k).waits b hb)
  have hrec : (Machine.finishApply n st k s).agreement.applying ≠ some n := by
    rw [show (Machine.finishApply n st k s).agreement = _ from completeSlot_agreement n st k _]
    exact fun he => (Agreement.some_of_given_up.1 he).1 rfl
  exact absurd (by rw [State.agreement, hb, ← hslot]; rfl) hrec

theorem advanceWrite (h : Calm P p s) (hp : ∀ b, p b → b.slot = a.slot) (hb : ∀ a, a.wait = .between → q a) :
    Calm P q (advanceWrite a s) := by
  unfold Machine.advanceWrite
  split
  · exact h.nextStep a hb
  · exact h.finished hp _ _

theorem writeDirty (h : Calm P p s) (l : Fin 32) (f : Nat) (d : FolioData) : Calm P p (writeDirty l f d s) :=
  (h.givePartial (s.line l).purgeMark).of_csq (by simp [Machine.writeDirty])

theorem writeClean (h : Calm P p s) (l : Fin 32) (f : Nat) (d : FolioData) : Calm P p (writeClean l f d s) := by
  refine satisfyTriples (of_csq (h.givePartial (s.line l).purgeMark) ?_) _
  rfl

theorem cacheUpdate (h : Calm P p s) (f : Nat) (d : FolioData) : Calm P p (cacheUpdate f d s) := by
  unfold Machine.cacheUpdate
  split
  · exact (h.writeClean _ f d).of_csq rfl
  · split
    · exact (h.writeClean _ f d).of_csq rfl
    · exact h

theorem cachedStep (h : Calm P p s) (hp : ∀ b, p b → b.slot = a.slot) (hb : ∀ a, a.wait = .between → q a)
    (hl : s.allocLine = none → ∀ a, a.wait = .forLine → q a) : Calm P q (cachedStep a s) := by
  unfold Machine.cachedStep
  dsimp only
  split
  · exact (h.writeDirty _ _ _).advanceWrite hp hb
  · split
    · exact (h.writeDirty _ _ _).advanceWrite hp hb
    · next hnone => exact h.setApply fun b hb => by cases hb; exact hl hnone _ rfl

theorem atomicUpdate (h : Calm P p s) (hp : ∀ b, p b → b.slot = a.slot) (hb : ∀ a, a.wait = .between → q a) :
    Calm P q (atomicUpdate a s) := by
  unfold Machine.atomicUpdate
  split
  · exact h.finished hp _ _
  · dsimp only
    split
    · exact finished (p := fun b => b.slot = a.slot) ((h.cacheUpdate _ _).setApply fun b hb => by cases hb; rfl) (fun _ => id) _ _
    · exact (h.cacheUpdate _ _).setApply fun b hb' => by cases hb'; exact hb _ rfl

theorem atomicStep (h : Calm P p s) (hp : ∀ b, p b → b.slot = a.slot) (hb : ∀ a, a.wait = .between → q a)
    (hm : ∀ a r, a.wait = .forMedia r → q a) : Calm P q (atomicStep a s) := by
  have hseq : Calm P p (if a.step = 0 then takeSeq ((s.slot a.slot).desc.count + 1) s else s) := by
    split
    · exact h.of_csq rfl
    · exact h
  unfold Machine.atomicStep
  dsimp only
  split
  · exact h.atomicUpdate hp hb
  · split
    · exact hseq.requestMedia _ _ hm
    · exact hseq.requestMedia _ _ hm

/-- A step that has waited for a line or for reclaim goes on, ends, waits for the media, or, a cached WRITE's without a
line, for a line. -/
theorem stepWork (h : Calm P p s) (hp : ∀ b, p b → b.slot = a.slot) (hspace : a.needsSpace = true)
    (hb : ∀ a, a.wait = .between → q a) (hm : ∀ a r, a.wait = .forMedia r → q a)
    (hl : s.allocLine = none → ∀ a, a.wait = .forLine → q a) : Calm P q (stepWork a false s) := by
  have hnote (hstep : a.step = 1) : Calm P q (trimStep a s) := by
    unfold trimStep
    rw [hstep]
    exact requestMedia (s := takeSeq 1 s) (h.of_csq rfl) _ _ hm
  unfold Machine.stepWork
  unfold Apply.needsSpace at hspace
  cases hk : a.kind with
  | writeCached => exact h.cachedStep hp hb hl
  | writeThrough => exact requestMedia (s := takeSeq 1 s) (h.of_csq rfl) _ _ hm
  | writeAtomic => exact h.atomicStep hp hb hm
  | trim =>
    rw [hk] at hspace
    exact hnote (beq_iff_eq.1 hspace)
  | eraseAll =>
    rw [hk] at hspace
    exact hnote (beq_iff_eq.1 hspace)
  | _ => rw [hk] at hspace; cases hspace

end

end Calm

/-! ### What is left to do -/

/-- How far a wait is from its end: foreground reclaim's may become a wait for a line. -/
def Wait.rank : Wait → Nat
  | .forReclaim => 2
  | .forLine => 1
  | .between => 0
  | .forMedia _ => 0
  | .forSleep => 0

/-- What can still become due: the slots that wait, and the wait of the apply in progress. -/
def State.left (s : State) : Nat :=
  (Finset.univ.filter fun n => s.unapplied n = true).card + (s.csq.apply.map fun a => a.wait.rank).getD 0

theorem left_le (s : State) : s.left ≤ 10 := by
  have hcard := Finset.card_le_univ (Finset.univ.filter fun n : Fin 8 => s.unapplied n = true)
  have hrank : (s.csq.apply.map fun a => a.wait.rank).getD 0 ≤ 2 := by
    cases s.csq.apply with
    | none => exact Nat.zero_le 2
    | some a => cases hw : a.wait <;> simp [Wait.rank, hw]
  simp only [Fintype.card_fin] at hcard
  unfold State.left
  omega

theorem Calm.card_le (h : Calm (fun m => s.unapplied m = true) p t) :
    (Finset.univ.filter fun n => t.unapplied n = true).card ≤ (Finset.univ.filter fun n => s.unapplied n = true).card := by
  refine Finset.card_le_card fun m hm => ?_
  rw [Finset.mem_filter] at hm ⊢
  exact ⟨hm.1, h.slots m hm.2⟩

theorem Calm.card_lt (h : Calm (fun m => s.unapplied m = true ∧ m ≠ n) p t) (hn : s.unapplied n = true) :
    (Finset.univ.filter fun n => t.unapplied n = true).card < (Finset.univ.filter fun n => s.unapplied n = true).card := by
  refine Finset.card_lt_card ⟨fun m hm => ?_, fun hsub => ?_⟩
  · rw [Finset.mem_filter] at hm ⊢
    exact ⟨hm.1, (h.slots m hm.2).1⟩
  · have hmem := hsub (Finset.mem_filter.2 ⟨Finset.mem_univ n, hn⟩)
    exact (h.slots n (Finset.mem_filter.1 hmem).2).2 rfl

theorem Calm.rank_le {k : Nat} (h : Calm P (fun a => a.wait.rank ≤ k) t) : (t.csq.apply.map fun a => a.wait.rank).getD 0 ≤ k := by
  cases ha : t.csq.apply with
  | none => exact Nat.zero_le k
  | some a => exact h.waits a ha

/-! ### What is due, case by case -/

theorem unapplied_of_due_start (h : s.due = some (.start n)) : s.csq.apply = none ∧ s.unapplied n = true := by
  have hnone := apply_none_of_due_start h
  refine ⟨hnone, ?_⟩
  simp only [State.due, hnone] at h
  split at h
  · next m hm =>
    cases h
    unfold State.startable at hm
    split_ifs at hm
    split at hm
    · next k hk =>
      split_ifs at hm
      cases hm
      exact List.find?_some hk
    · cases hm
  · split_ifs at h
    cases h

theorem apply_of_due_lineWaitEnd (h : s.due = some .lineWaitEnd) :
    ∃ a, s.csq.apply = some a ∧ a.wait = .forLine ∧ a.kind = .writeCached ∧ s.allocLine ≠ none := by
  unfold State.due at h
  cases ha : s.csq.apply with
  | none =>
    rw [ha] at h
    dsimp only at h
    split at h
    · cases h
    · split_ifs at h
      cases h
  | some a =>
    rw [ha] at h
    dsimp only at h
    cases hw : a.wait with
    | forLine =>
      rw [hw] at h
      dsimp only at h
      split_ifs at h with hc
      simp only [Bool.and_eq_true, decide_eq_true_eq, Option.isSome_iff_ne_none] at hc
      exact ⟨a, rfl, hw, hc.1, hc.2⟩
    | forReclaim =>
      rw [hw] at h
      dsimp only at h
      split_ifs at h
      cases h
    | _ => rw [hw] at h; cases h

theorem apply_of_due_foregroundEnd (h : s.due = some .foregroundEnd) :
    ∃ a, s.csq.apply = some a ∧ a.wait = .forReclaim ∧ a.needsSpace = true ∧ s.foreground = false := by
  unfold State.due at h
  cases ha : s.csq.apply with
  | none =>
    rw [ha] at h
    dsimp only at h
    split at h
    · cases h
    · split_ifs at h
      cases h
  | some a =>
    rw [ha] at h
    dsimp only at h
    cases hw : a.wait with
    | forReclaim =>
      rw [hw] at h
      dsimp only at h
      split_ifs at h with hc
      simp only [Bool.and_eq_true, Bool.not_eq_true'] at hc
      exact ⟨a, rfl, hw, hc.1, hc.2⟩
    | forLine =>
      rw [hw] at h
      dsimp only at h
      split_ifs at h
      cases h
    | _ => rw [hw] at h; cases h

theorem apply_of_due_dozeEntry (h : s.due = some .dozeEntry) : s.csq.apply = none := by
  cases ha : s.csq.apply with
  | none => rfl
  | some a =>
    unfold State.due at h
    rw [ha] at h
    dsimp only at h
    split at h
    · split_ifs at h
      cases h
    · split_ifs at h
      cases h
    all_goals cases h

/-! ### The end of a unit in DOZE -/

/-- The evaluations at the end of a unit that leave the Power Manager alone. -/
def evaluated (s : State) : State := chooseOwner (settleSlots (assignBuffers (evalDraining (evalMedia (releaseRetry s)))))

theorem endUnit_eq (s : State) : endUnit s = evalPower (settleMediaPower (evaluated s)) := rfl

theorem evaluated_pwr (s : State) : (evaluated s).pwr = s.pwr := by
  unfold evaluated assignBuffers
  rw [chooseOwner_frame, settleSlots_frame, assignOne_frame, assignOne_frame]
  dsimp only [evalDraining]
  rw [evalMedia_frame, releaseRetry_frame]

theorem atRest_of_asleep (hnone : s.csq.apply = none) (h : s.pwr.state ≠ .active ∧ s.pwr.state ≠ .idle) : s.AtRest := by
  unfold State.AtRest State.due State.startable State.sequencerFree State.awake State.dozeReady
  rw [hnone]
  simp [h]

/-- The entry into DOZE leaves nothing due. -/
theorem atRest_enterDoze (hnone : s.csq.apply = none) : (endUnit (enterDoze s)).AtRest := by
  have hcalm : Calm (fun _ => True) (fun _ => False) (enterDoze s) :=
    ⟨fun _ _ => trivial, fun a ha => by rw [show (enterDoze s).csq.apply = none from hnone] at ha; cases ha⟩
  refine atRest_of_asleep ?_ ?_
  · cases ha : (endUnit (enterDoze s)).csq.apply with
    | none => rfl
    | some a => exact ((hcalm.endUnit fun _ _ => id).waits a ha).elim
  · have hdoze : (evaluated (enterDoze s)).pwr.state = .doze := by
      rw [evaluated_pwr]
      rfl
    have hsettled : settleMediaPower (evaluated (enterDoze s)) = evaluated (enterDoze s) := by
      unfold settleMediaPower
      split
      · rfl
      · rw [hdoze]
    rw [endUnit_eq, hsettled]
    change (evaluated (enterDoze s)).powerOf ≠ .active ∧ (evaluated (enterDoze s)).powerOf ≠ .idle
    unfold State.powerOf
    rw [hdoze]
    split_ifs
    · decide
    · decide
    · decide
    · decide

/-! ### The statements -/

/-- A due step leaves less that can become due, or nothing due. -/
theorem perform_left {d : Due} (h : s.due = some d) : (perform d false s).AtRest ∨ (perform d false s).left < s.left := by
  have hself : Calm (fun m => s.unapplied m = true) (fun b => s.csq.apply = some b) s := ⟨fun _ => id, fun _ => id⟩
  cases d with
  | start n =>
    obtain ⟨hnone, hn⟩ := unapplied_of_due_start h
    have hcalm := ((hself.noApply hnone (fun a => a.wait.rank ≤ 0)).startSlot n (fun a ha => by rw [ha]; exact le_refl 0)
      (fun a ha => by rw [ha]; exact le_refl 0)).endUnit fun _ _ => id
    have hcard := hcalm.card_lt hn
    have hrank := hcalm.rank_le
    right
    change (endUnit (startSlot n false s)).left < s.left
    unfold State.left
    omega
  | lineWaitEnd =>
    obtain ⟨a, ha, hw, hk, halloc⟩ := apply_of_due_lineWaitEnd h
    have hwork : endWait s = stepWork a false s := by rw [endWait, ha]
    have hspace : a.needsSpace = true := by rw [Apply.needsSpace, hk]
    have hcalm : Calm (fun m => s.unapplied m = true) (fun a => a.wait.rank ≤ 0) (endUnit (stepWork a false s)) :=
      (hself.stepWork (fun b hb => by rw [ha] at hb; cases hb; rfl) hspace (fun b hb => by rw [hb]; exact le_refl 0)
        (fun b r hb => by rw [hb]; exact le_refl 0) (fun hno => absurd hno halloc)).endUnit fun _ _ => id
    have hcard := hcalm.card_le
    have hrank := hcalm.rank_le
    have hold : (s.csq.apply.map fun a => a.wait.rank).getD 0 = 1 := by rw [ha, Option.map_some, hw]; rfl
    right
    change (endUnit (endWait s)).left < s.left
    rw [hwork]
    unfold State.left
    omega
  | foregroundEnd =>
    obtain ⟨a, ha, hw, hspace, -⟩ := apply_of_due_foregroundEnd h
    have hwork : endWait s = stepWork a false s := by rw [endWait, ha]
    have hcalm : Calm (fun m => s.unapplied m = true) (fun a => a.wait.rank ≤ 1) (endUnit (stepWork a false s)) :=
      (hself.stepWork (fun b hb => by rw [ha] at hb; cases hb; rfl) hspace (fun b hb => by rw [hb]; exact Nat.zero_le 1)
        (fun b r hb => by rw [hb]; exact Nat.zero_le 1) (fun _ b hb => by rw [hb]; exact le_refl 1)).endUnit fun _ _ => id
    have hcard := hcalm.card_le
    have hrank := hcalm.rank_le
    have hold : (s.csq.apply.map fun a => a.wait.rank).getD 0 = 2 := by rw [ha, Option.map_some, hw]; rfl
    right
    change (endUnit (endWait s)).left < s.left
    rw [hwork]
    unfold State.left
    omega
  | dozeEntry => exact .inl (atRest_enterDoze (apply_of_due_dozeEntry h))

theorem settleDue_settles (k : Nat) (s : State) (hk : s.left + 2 ≤ k) : (settleDue k s).AtRest := by
  induction k generalizing s with
  | zero => omega
  | succ k ih =>
    unfold settleDue
    split
    · next d hd =>
      rcases perform_left hd with hrest | hless
      · rwa [settleDue_atRest hrest]
      · exact ih _ (by omega)
    · next hd => exact hd

/-- Settles O4, by what is left to do: at most eight slots that wait and one wait of the apply in progress. -/
theorem nothingStaysDue : Obligations.NothingStaysDue := by
  unfold Obligations.NothingStaysDue
  intro s
  have hle := left_le s
  exact settleDue_settles 24 s (by omega)

theorem caughtUp_caughtUp (s : State) : caughtUp (caughtUp s) = caughtUp s := caughtUp_atRest (nothingStaysDue s)

/-- Settles O3. -/
theorem commandsActOnCaughtUpStates : Obligations.CommandsActOnCaughtUpStates := by
  unfold Obligations.CommandsActOnCaughtUpStates
  refine fun c s => ⟨fun hc => ?_, fun hc hrest => ?_⟩
  · have hunit (f : State → State) :
        (.next (f (caughtUp s)) : Host.Outcome State Fault Refusal) = .next (f (caughtUp (caughtUp s))) := by
      rw [caughtUp_caughtUp]
    cases c with
    | dataPortWrite a w => exact hunit fun u => if isDataPortAddr a then writeAt a (dataWrite w) u else u
    | registerWrite a w => exact hunit (writeAt a (writeAddr a w))
    | rejectLogClear w => exact hunit (writeAt 0x05 (rejectLogOp w))
    | cdWrite n w => exact hunit (writeAt (cdAddr n) (cdOp n w))
    | submit w => exact hunit (writeAt 0x0C (submitWrite w))
    | abort w => exact hunit (writeAt 0x0D (abortWrite w))
    | retire w => exact hunit (writeAt 0x15 (retireWrite w))
    | wake w | nenWrite w | controllerReset w => exact hunit (writeAt 0x03 (hostControlOp w))
    | portReset w | portResetRelease w => exact hunit (writeAt 0x02 (portConfigOp w))
    | evPendingClear w => exact hunit (writeAt 0x20 (evPendingWrite w))
    | faultPendingClear w => exact hunit (writeAt 0x23 (faultPendingWrite w))
    | endWrite w => exact hunit (writeAt 0x25 (endOp w))
    | serviceWrite w => exact hunit (writeAt 0x26 (serviceOp w))
    | quietWrite w => exact hunit (writeAt 0x28 (quietOp w))
    | coalesceWrite w => exact hunit (writeAt 0x29 (coalesceOp w))
    | cachePolicyWrite w => exact hunit (writeAt 0x30 (cachePolicyOp w))
    | dozeDelayWrite w => exact hunit (writeAt 0x32 (dozeDelayOp w))
    | frameStart => exact hunit frameStartOp
    | frameEnd => exact hunit frameEndOp
    | statePoll => exact hunit pollWord
    | frameTypeDecode b a k => exact hunit fun u => endUnit (typeDecode b a k u)
    | readWordCapture b => exact hunit fun u => endUnit (captureOp b u)
    | dataPortRead => exact hunit (completeWord isDataPortAddr)
    | claim => exact hunit (completeWord fun a => a == 0x24)
    | applyStep b => exact hunit fun u => endUnit (applyStepOp b u)
    | mediaPortGrant => exact hunit fun u => endUnit (portGrant u)
    | mediaReadComplete r => exact hunit fun u => endUnit (readComplete r u)
    | mediaProgramComplete => exact hunit fun u => endUnit (programComplete u)
    | programFail => exact hunit fun u => endUnit (programFailed u)
    | wbeCapture b => exact hunit fun u => endUnit (wbeCaptureOp b u)
    | ticketComplete => exact hunit fun u => endUnit (ticketLanded u)
    | sleepCompletion => exact hunit fun u => endUnit (sleepComplete u)
    | mediaReady => exact hunit fun u => endUnit (mediaReadyOp u)
    | por => exact hunit fun u => endUnit (fullReset .por u)
    | porEnd => exact hunit fun u => endUnit (porEndOp u)
    | pinReset => exact hunit fun u => endUnit (pinResetOp u)
    | pinResetRelease => exact hunit fun u => endUnit (pinReleaseOp u)
    | mountMetadataReadComplete b => exact hunit fun u => endUnit (mountRead b u)
    | mountReeraseComplete b => exact hunit fun u => endUnit (mountErased b u)
    | mountEnd => exact hunit fun u => endUnit (mountFinish u)
    | reclaimVictimChoice => exact hunit fun u => endUnit (chooseVictim u)
    | reclaimCopyComplete => exact hunit fun u => endUnit (reclaimCopied u)
    | reclaimEraseComplete b => exact hunit fun u => endUnit (reclaimErased b u)
    | relocationCopyComplete => exact hunit fun u => endUnit (relocationCopied u)
    | tick w0 w1 => exact hunit fun u => endUnit (tickWhen (fun _ => true) w0 w1 u)
    | stallLimit w0 w1 => exact hunit fun u => endUnit (tickWhen State.stallsNow w0 w1 u)
    | powerupStall w0 w1 => exact hunit fun u => endUnit (tickWhen State.powerUpStallsNow w0 w1 u)
    | quietEnd w0 w1 => exact hunit fun u => endUnit (tickWhen State.quietEndsNow w0 w1 u)
    | coalesceTimeout w0 w1 => exact hunit fun u => endUnit (tickWhen State.timeoutNow w0 w1 u)
    | dozeIntentArm w0 w1 => exact hunit fun u => endUnit (tickWhen State.armsNow w0 w1 u)
    | read | writeCached _ | writeThrough _ | writeAtomic _ | trim | prefetch | discard | clean | flush | purge | sync
    | describe | healthCounters | healthDefectList | sleep | eraseAll | lineWaitEnd | reclaimForegroundEnd | dozeEntry => cases hc
  · have hrow (p : State → Due → Bool) (bad : Bool) :
        (.next (dueRow p bad s) : Host.Outcome State Fault Refusal) = .next s := by
      rw [dueRow_atRest p bad hrest]
    cases c with
    | read | writeCached _ | writeThrough _ | writeAtomic _ | trim | prefetch | discard | clean | flush | purge | sync
    | describe | healthCounters | healthDefectList | sleep | eraseAll | lineWaitEnd | reclaimForegroundEnd | dozeEntry =>
      exact hrow _ _
    | _ => cases hc

end Sys2Proof.Machine
end

section
/-! The power state at the end of a unit (O6). -/

namespace Sys2Proof.Machine

variable {s t u : State}

/-! ### The evaluations of a unit's end -/

theorem takeReclaimOpen_setCsq (s : State) (c : Csq) :
    takeReclaimOpen { s with csq := c } = { takeReclaimOpen s with csq := c } := by
  change (if s.mm.reclaimOpen.isNone && decide (1 ≤ s.freeCount) then
      match s.freeGroup with
      | some g => openGroup g { s with csq := c, mm := { s.mm with reclaimOpen := some g } }
      | none => { s with csq := c }
    else { s with csq := c }) = _
  unfold takeReclaimOpen
  split
  · cases s.freeGroup with
    | none => rfl
    | some g => rfl
  · rfl

theorem takeHostOpen_setCsq (s : State) (c : Csq) : takeHostOpen { s with csq := c } = { takeHostOpen s with csq := c } := by
  change (if s.mm.hostOpen.isNone && decide (2 ≤ s.freeCount) then
      match s.freeGroup with
      | some g => openGroup g { s with csq := c, mm := { s.mm with hostOpen := some g } }
      | none => { s with csq := c }
    else { s with csq := c }) = _
  unfold takeHostOpen
  split
  · cases s.freeGroup with
    | none => rfl
    | some g => rfl
  · rfl

/-- The MM's evaluations read nothing of the CSQ. -/
theorem evalMedia_setCsq (s : State) (c : Csq) : evalMedia { s with csq := c } = { evalMedia s with csq := c } := by
  unfold evalMedia
  rw [takeReclaimOpen_setCsq, takeHostOpen_setCsq]
  change (if s.mount.isSome || s.held || s.rst.inReset.isSome then { s with csq := c }
    else evalReclaim (pruneNotes { takeHostOpen (takeReclaimOpen s) with csq := c })) = _
  split
  · rfl
  · rfl

theorem evaluated_frame (s : State) : evaluated s = { s with
    csq := { s.csq with
      slots := (evaluated s).csq.slots, completions := (evaluated s).csq.completions, apply := (evaluated s).csq.apply }
    dp := (evaluated s).dp
    fc := { s.fc with draining := (evalDraining s).fc.draining }
    mm := (evalMedia s).mm
    ntc := { s.ntc with
      evPending := (evaluated s).ntc.evPending, unannounced := (evaluated s).ntc.unannounced
      timer := (evaluated s).ntc.timer } } := by
  have hretry : evalDraining (evalMedia (releaseRetry s)) = { s with
      csq := { s.csq with apply := (releaseRetry s).csq.apply }
      fc := { s.fc with draining := (evalDraining s).fc.draining }
      mm := (evalMedia s).mm } := by
    rw [releaseRetry_frame, evalMedia_setCsq, evalMedia_frame]
    rfl
  unfold evaluated assignBuffers
  rw [chooseOwner_frame, settleSlots_frame, assignOne_frame, assignOne_frame, hretry]

/-! ### Events -/

/-- From `s` to `t` only events of `m` become pending, and none ends. -/
def Raised (m : BitVec 9) (s t : State) : Prop := ∃ x : BitVec 9, t.ntc.evPending = s.ntc.evPending ||| x ∧ x &&& ~~~m = 0

namespace Raised

variable {m : BitVec 9}

theorem of_eq (h : t.ntc.evPending = s.ntc.evPending) : Raised m s t := ⟨0, by simp [h], by simp⟩

theorem trans (h : Raised m s t) (h' : Raised m t u) : Raised m s u := by
  obtain ⟨x, hx, hxm⟩ := h
  obtain ⟨y, hy, hym⟩ := h'
  refine ⟨x ||| y, by rw [hy, hx, BitVec.or_assoc], ?_⟩
  rw [BitVec.and_comm, BitVec.and_or_distrib_left, BitVec.and_comm, hxm, BitVec.and_comm, hym]
  rfl

theorem stands (h : Raised m s t) : s.ntc.evPending &&& t.ntc.evPending = s.ntc.evPending := by
  obtain ⟨x, hx, -⟩ := h
  rw [hx]
  ext i hi
  simp only [BitVec.getElem_and, BitVec.getElem_or]
  cases s.ntc.evPending[i] <;> rfl

theorem pendingEvent (h : Raised m s t) {e : Event} (he : m.getLsbD e.index = false) (hi : e.index < 9) :
    t.ntc.pendingEvent e = s.ntc.pendingEvent e := by
  obtain ⟨x, hx, hxm⟩ := h
  have hbit : (x &&& ~~~m).getLsbD e.index = false := by rw [hxm]; simp
  rw [BitVec.getLsbD_and, BitVec.getLsbD_not, he] at hbit
  unfold Ntc.pendingEvent
  rw [hx, BitVec.getLsbD_or]
  have hzero : x.getLsbD e.index = false := by simpa [hi] using hbit
  rw [hzero, Bool.or_false]

end Raised

/-- The events DATA and CMPL. -/
def portEvents : BitVec 9 := 3

theorem raised_countCompletion (p : Bool) (s : State) : Raised portEvents s (countCompletion p s) := by
  unfold countCompletion
  split
  · exact ⟨BitVec.twoPow 9 1, rfl, by decide⟩
  · exact .of_eq rfl

theorem raised_completeSlot (n : Fin 8) (st : Status) (k : Nat) (s : State) : Raised portEvents s (completeSlot n st k s) := by
  rw [completeSlot_eq]
  exact (Raised.of_eq (m := portEvents) (s := s) rfl).trans (raised_countCompletion _ _)

theorem raised_foldl {α : Type} {m : BitVec 9} {f : State → α → State} (hf : ∀ s a, Raised m s (f s a)) (l : List α) (s : State) :
    Raised m s (l.foldl f s) := by
  induction l generalizing s with
  | nil => exact .of_eq rfl
  | cons a l ih => exact (hf s a).trans (ih _)

theorem raised_settleSlot (n : Fin 8) (s : State) : Raised portEvents s (settleSlot n s) := by
  unfold settleSlot
  split
  · exact raised_completeSlot _ _ _ s
  · exact .of_eq rfl

theorem raised_settleSlots (s : State) : Raised portEvents s (settleSlots s) := by
  refine (raised_foldl (fun u n => ?_) _ s).trans (raised_foldl (fun u n => ?_) _ _)
  · split
    · exact .of_eq rfl
    · exact raised_settleSlot n u
  · split
    · exact raised_settleSlot n u
    · exact .of_eq rfl

theorem raised_chooseOwner (s : State) : Raised portEvents s (chooseOwner s) := by
  unfold chooseOwner
  split
  · exact .of_eq rfl
  · split
    · exact ⟨BitVec.twoPow 9 0, rfl, by decide⟩
    · exact .of_eq rfl

theorem raised_evaluated (s : State) : Raised portEvents s (evaluated s) := by
  have hbefore : Raised portEvents s (assignBuffers (evalDraining (evalMedia (releaseRetry s)))) := by
    unfold assignBuffers
    rw [assignOne_frame, assignOne_frame, releaseRetry_frame, evalMedia_frame]
    exact .of_eq rfl
  exact (hbefore.trans (raised_settleSlots _)).trans (raised_chooseOwner _)

/-! ### The media's power and the power state -/

/-- A WAKING that cancelled the media's power-down, with no operation in progress (R171). -/
def State.cancelled (s : State) : Prop := s.pwr.state = .waking ∧ s.pwr.powerUp = none ∧ s.mm.port = none

theorem settleMediaPower_cancelled (h : s.cancelled) : settleMediaPower s = finishWaking s := by
  obtain ⟨hstate, hup, hport⟩ := h
  unfold settleMediaPower
  rw [if_neg (by simp [hport]), hstate]
  exact if_pos (by simp [hup])

theorem settleMediaPower_other (h : ¬s.cancelled) : settleMediaPower s = { s with pwr := { s.pwr with
    mediaOn := s.pwr.mediaOn && !(s.pwr.state == .sleep && s.mm.port.isNone) } } := by
  have hstays (hport : s.pwr.state ≠ .sleep ∨ s.mm.port ≠ none) : s = { s with pwr := { s.pwr with
      mediaOn := s.pwr.mediaOn && !(s.pwr.state == .sleep && s.mm.port.isNone) } } := by
    have hoff : (s.pwr.state == .sleep && s.mm.port.isNone) = false := by
      rcases hport with h | h
      · simp [h]
      · rw [Option.isNone_eq_false_iff.2 (Option.isSome_iff_ne_none.2 h), Bool.and_false]
    rw [hoff, Bool.not_false, Bool.and_true]
  unfold settleMediaPower
  split
  · next hport => exact hstays (.inr (Option.isSome_iff_ne_none.1 hport))
  · next hport =>
    have hnone : s.mm.port = none := by simpa using hport
    split
    case h_1 => next hstate => rw [hnone, hstate]; simp
    case h_2 =>
      next hstate =>
      have hup : s.pwr.powerUp ≠ none := fun hup => h ⟨hstate, hup, hnone⟩
      rw [if_neg (by simpa using hup)]
      exact hstays (.inl (by rw [hstate]; decide))
    all_goals
      next hstate => exact hstays (.inl (by rw [hstate]; decide))

/-! ### What R166 gives -/

theorem powerOf_cases (s : State) :
    (s.rst.portReset = true ∨ s.rst.inReset.isSome = true) ∧ s.powerOf = .resetHeld
      ∨ (s.rst.portReset = false ∧ s.rst.inReset = none) ∧ (s.mount.isSome = true ∧ s.powerOf = .mounting
        ∨ s.mount = none ∧ (s.pwr.state ∈ [.sleep, .doze, .waking] ∧ s.powerOf = s.pwr.state
          ∨ s.pwr.state ∉ [PowerState.sleep, .doze, .waking]
            ∧ s.powerOf = if s.slotWork = true ∨ s.engineWork = true then .active else .idle)) := by
  unfold State.powerOf
  by_cases hreset : s.rst.portReset = true ∨ s.rst.inReset.isSome = true
  · exact .inl ⟨hreset, if_pos (by simpa using hreset)⟩
  · rw [if_neg (by simpa using hreset)]
    rw [not_or, Bool.not_eq_true, Bool.not_eq_true, Option.isSome_eq_false_iff, Option.isNone_iff_eq_none] at hreset
    refine .inr ⟨hreset, ?_⟩
    by_cases hmount : s.mount.isSome = true
    · exact .inl ⟨hmount, if_pos hmount⟩
    · rw [if_neg hmount]
      rw [Bool.not_eq_true, Option.isSome_eq_false_iff, Option.isNone_iff_eq_none] at hmount
      refine .inr ⟨hmount, ?_⟩
      cases hstate : s.pwr.state with
      | sleep | doze | waking => exact .inl ⟨by decide, rfl⟩
      | _ => exact .inr ⟨by decide, by simp⟩

theorem powerOf_resetHeld_iff (s : State) : s.powerOf = .resetHeld ↔ s.rst.portReset = true ∨ s.rst.inReset.isSome = true := by
  rcases powerOf_cases s with ⟨hr, h⟩ | ⟨⟨hp, hi⟩, ⟨-, h⟩ | ⟨-, ⟨hmem, h⟩ | ⟨-, h⟩⟩⟩
  · exact iff_of_true h hr
  · exact iff_of_false (by rw [h]; decide) (by simp [hp, hi])
  · exact iff_of_false (by rw [h]; intro he; rw [he] at hmem; revert hmem; decide) (by simp [hp, hi])
  · exact iff_of_false (by rw [h]; split <;> decide) (by simp [hp, hi])

theorem powerOf_mounting_iff (s : State) :
    s.powerOf = .mounting ↔ s.rst.portReset = false ∧ s.rst.inReset = none ∧ s.mount.isSome = true := by
  rcases powerOf_cases s with ⟨hr, h⟩ | ⟨⟨hp, hi⟩, ⟨hm, h⟩ | ⟨hm, ⟨hmem, h⟩ | ⟨-, h⟩⟩⟩
  · refine iff_of_false (by rw [h]; decide) fun ⟨hp, hi, _⟩ => ?_
    rw [hp, hi] at hr
    simp at hr
  · exact iff_of_true h ⟨hp, hi, hm⟩
  · exact iff_of_false (by rw [h]; intro he; rw [he] at hmem; revert hmem; decide) (by simp [hm])
  · exact iff_of_false (by rw [h]; split <;> decide) (by simp [hm])

theorem work_of_powerOf_active (h : s.powerOf = .active) : s.slotWork = true ∨ s.engineWork = true := by
  rcases powerOf_cases s with ⟨-, h'⟩ | ⟨-, ⟨-, h'⟩ | ⟨-, ⟨hmem, h'⟩ | ⟨-, h'⟩⟩⟩
  · rw [h'] at h; cases h
  · rw [h'] at h; cases h
  · rw [h'] at h; rw [h] at hmem; exact absurd hmem (by decide)
  · rw [h'] at h
    split at h
    · next hwork => exact hwork
    · cases h

theorem rest_of_powerOf_idle (h : s.powerOf = .idle) : s.slotWork = false ∧ s.engineWork = false := by
  rcases powerOf_cases s with ⟨-, h'⟩ | ⟨-, ⟨-, h'⟩ | ⟨-, ⟨hmem, h'⟩ | ⟨-, h'⟩⟩⟩
  · rw [h'] at h; cases h
  · rw [h'] at h; cases h
  · rw [h'] at h; rw [h] at hmem; exact absurd hmem (by decide)
  · rw [h'] at h
    split at h
    · cases h
    · next hwork => simpa using hwork

theorem powerOf_lasting (h : s.powerOf = .sleep ∨ s.powerOf = .doze ∨ s.powerOf = .waking) : s.powerOf = s.pwr.state := by
  rcases powerOf_cases s with ⟨-, h'⟩ | ⟨-, ⟨-, h'⟩ | ⟨-, ⟨-, h'⟩ | ⟨-, h'⟩⟩⟩
  · rw [h'] at h; exact absurd h (by decide)
  · rw [h'] at h; exact absurd h (by decide)
  · exact h'
  · rw [h'] at h
    split at h
    · exact absurd h (by decide)
    · exact absurd h (by decide)

theorem powerOf_stays (hp : s.rst.portReset = false) (hi : s.rst.inReset = none) (hm : s.mount = none)
    (hmem : s.pwr.state ∈ [.sleep, .doze, .waking]) : s.powerOf = s.pwr.state := by
  rcases powerOf_cases s with ⟨hr, -⟩ | ⟨-, ⟨hm', -⟩ | ⟨-, ⟨-, h'⟩ | ⟨hnot, -⟩⟩⟩
  · rw [hp, hi] at hr; simp at hr
  · rw [hm] at hm'; cases hm'
  · exact h'
  · exact absurd hmem hnot

theorem slotWork_iff (s : State) : s.slotWork = true ↔ ∃ n, (s.slot n).state ∉ [SlotState.free, .done] := by
  have hwork (x : SlotState) : x.isWork = true ↔ x ∉ [SlotState.free, .done] := by cases x <;> decide
  unfold State.slotWork
  simp only [List.any_eq_true, hwork]
  constructor
  · rintro ⟨sl, hsl, h⟩
    obtain ⟨i, hi, rfl⟩ := List.mem_iff_getElem.1 hsl
    have hlen : i < 8 := by simpa using hi
    exact ⟨⟨i, hlen⟩, by simpa [State.slot] using h⟩
  · rintro ⟨n, h⟩
    exact ⟨s.slot n, by simp [State.slot], h⟩

theorem reclaimPriority_active_iff (s : State) : s.reclaimPriority ≠ .inactive ↔
    s.freeCount < 3 ∨ s.mm.reclaimFill = true ∨ s.groupsIn .retiring ≠ [] := by
  have hcode : s.reclaimPriority ≠ .inactive ↔ s.reclaimPriority.code ≠ 0 := by
    cases s.reclaimPriority <;> decide
  rw [hcode, reclaimPriority_code]
  by_cases hfree : s.freeCount < 3
  · simp [hfree]
  · by_cases hfill : s.mm.reclaimFill = true ∨ s.groupsIn .retiring ≠ []
    · simp [hfree, hfill]
    · simp [hfree, hfill]

theorem engineWork_iff (s : State) : s.engineWork = true ↔ s.mm.port ≠ none
    ∨ (∃ a r, s.csq.apply = some a ∧ a.wait = .forMedia r) ∨ s.fc.ticket ≠ none
    ∨ (s.wbeRuns = true ∧ s.fc.dirtyList ≠ []) ∨ s.mm.victim ≠ none
    ∨ ((s.freeCount < 3 ∨ s.mm.reclaimFill = true ∨ s.groupsIn .retiring ≠ []) ∧ s.pickVictim ≠ none)
    ∨ s.mm.relocQueue ≠ [] ∨ s.mm.relocCopy ≠ none := by
  rw [← reclaimPriority_active_iff]
  unfold State.engineWork
  simp only [Bool.or_eq_true, Bool.and_eq_true, bne_iff_ne, Bool.not_eq_true', List.isEmpty_eq_false_iff,
    Option.isSome_iff_ne_none, or_assoc]
  refine or_congr_right (or_congr_left ?_)
  cases s.csq.apply with
  | none => simp
  | some a => cases hw : a.wait <;> simp [hw]

/-- Settles O6. -/
theorem powerStateFollowsConditions : Obligations.PowerStateFollowsConditions := by
  unfold Obligations.PowerStateFollowsConditions
  intro s
  dsimp only
  have hpwr : (evaluated s).pwr = s.pwr := evaluated_pwr s
  have hpstate : (evaluated s).pwr.state = s.pwr.state := by rw [hpwr]
  have hport : (evaluated s).mm.port = s.mm.port := by rw [evaluated_frame, evalMedia_frame]
  have hsame : (evaluated s).cancelled ↔ s.cancelled := by unfold State.cancelled; rw [hpwr, hport]
  have hpower : (evaluated s).ntc.pendingEvent .power = s.ntc.pendingEvent .power :=
    (raised_evaluated s).pendingEvent (by decide) (by decide)
  obtain ⟨w, hw⟩ : ∃ w, w = settleMediaPower (evaluated s) := ⟨_, rfl⟩
  have hrst : w.rst = s.rst ∧ w.mount = s.mount := by
    rw [hw, settleMediaPower_frame, evaluated_frame]
    exact ⟨rfl, rfl⟩
  have hend : endUnit s = evalPower w := by rw [hw]; rfl
  rw [hend]
  have hlast : w.pwr.state = .active ∨ w.pwr.state = s.pwr.state := by
    by_cases hc : s.cancelled
    · rw [hw, settleMediaPower_cancelled (hsame.2 hc)]
      exact .inl rfl
    · rw [hw, settleMediaPower_other (mt hsame.1 hc)]
      exact .inr hpstate
  refine ⟨powerOf_resetHeld_iff w, powerOf_mounting_iff w, work_of_powerOf_active, rest_of_powerOf_idle, fun h => ?_,
    slotWork_iff s, engineWork_iff s, fun hmem hnot hp hi hm => ?_, fun hc => ?_, fun hc => ?_⟩
  · have hsame : w.powerOf = w.pwr.state := powerOf_lasting h
    rcases hlast with hl | hl
    · rw [show (evalPower w).pwr.state = w.powerOf from rfl, hsame, hl] at h
      exact absurd h (by decide)
    · exact hsame.trans hl
  · have hstate : w.pwr.state = s.pwr.state := by
      rw [hw, settleMediaPower_other (mt hsame.1 hnot)]
      exact hpstate
    exact (powerOf_stays (hrst.1 ▸ hp) (hrst.1 ▸ hi) (hrst.2 ▸ hm) (hstate ▸ hmem)).trans hstate
  · have hwoken : w = finishWaking (evaluated s) := hw.trans (settleMediaPower_cancelled (hsame.2 hc))
    refine ⟨fun h => ?_, ?_, ?_, ?_, ?_⟩
    · have hw' : w.powerOf = w.pwr.state := powerOf_lasting (.inr (.inr h))
      rw [show (evalPower w).pwr.state = w.powerOf from rfl, hw', hwoken] at h
      cases h
    · rw [hwoken]
      rfl
    · rw [hwoken]
      rfl
    · rw [hwoken]
      rfl
    · rw [hwoken]
      change ((evaluated s).ntc.evPending ||| BitVec.twoPow 9 7).getLsbD 7 = true
      simp
  · have hstays := hw.trans (settleMediaPower_other (mt hsame.1 hc))
    refine ⟨?_, ?_, ?_, ?_⟩
    · rw [hstays]
      exact (by rw [hpwr] : (evaluated s).pwr.powerUp = s.pwr.powerUp)
    · rw [hstays]
      exact hpower
    · rw [hstays]
      change ((evaluated s).pwr.mediaOn && !((evaluated s).pwr.state == .sleep && (evaluated s).mm.port.isNone)) = _
      rw [hpwr, hport]
    · have hidle : w.pwr.idleTimer = s.pwr.idleTimer ∧ w.pwr.state = s.pwr.state := by
        rw [hstays]
        exact ⟨(by rw [hpwr] : (evaluated s).pwr.idleTimer = s.pwr.idleTimer), hpstate⟩
      change (if w.pwr.state = .idle && w.powerOf != .idle then 0 else w.pwr.idleTimer)
        = if s.pwr.state = .idle ∧ w.powerOf ≠ .idle then 0 else s.pwr.idleTimer
      rw [hidle.1, hidle.2]
      simp

end Sys2Proof.Machine
end

section
/-! Settling, buffer assignment and the port owner at the end of a unit (O7). -/

namespace Sys2Proof.Machine

variable {s t u : State} {n m : Fin 8}

/-! ### What the settle condition and the port's eligibility read -/

theorem hasMark_iff (s : State) (n : Fin 8) : s.hasMark n = true ↔ ∃ l, (s.line l).purgeMark = some n := by
  unfold State.hasMark
  simp only [List.any_eq_true, beq_iff_eq]
  constructor
  · rintro ⟨x, hx, h⟩
    obtain ⟨i, hi, rfl⟩ := List.mem_iff_getElem.1 hx
    have hlen : i < 32 := by simpa using hi
    exact ⟨⟨i, hlen⟩, by simpa [State.line] using h⟩
  · rintro ⟨l, h⟩
    exact ⟨s.line l, by simp [State.line], h⟩

theorem settleMet_iff (s : State) (n : Fin 8) : s.settleMet n = true ↔
    ((s.slot n).desc.cmd ∈ [Cmd.clean, .flush] ∧ (s.slot n).triples = [])
      ∨ ((s.slot n).desc.cmd = .purge ∧ ∀ l, (s.line l).purgeMark ≠ some n)
      ∨ ((s.slot n).desc.cmd = .sync ∧ ∀ m ∈ s.csq.runQueue.takeWhile (· != n), (s.slot m).state = .done) := by
  have hmark := hasMark_iff s n
  unfold State.settleMet
  cases hcmd : (s.slot n).desc.cmd with
  | purge =>
    dsimp only
    rw [Bool.not_eq_true', ← Bool.not_eq_true, hmark]
    simp
  | clean | flush => simp
  | sync => simp [State.older]
  | _ => simp

theorem portEligible_iff (s : State) (n : Fin 8) : s.portEligible n = true ↔
    ((s.slot n).state = .loading ∧ (s.wordsOf n).length < (s.slot n).desc.count * 256)
      ∨ ((s.slot n).state = .unloading ∧ s.consumedOf n < (s.wordsOf n).length) := by
  have hsize : Config.folioWords = 256 := rfl
  unfold State.portEligible State.wordsRemaining
  rw [decide_eq_true_eq, hsize]
  cases hs : (s.slot n).state with
  | loading => simp
  | unloading => simp
  | _ => simp

/-! ### Settling leaves no condition met -/

/-- A slot that is SETTLING still waits. -/
def State.Unmet (s : State) (n : Fin 8) : Prop := (s.slot n).state = .settling → s.settleMet n = false

theorem slot_completeSlot (n : Fin 8) (st : Status) (k : Nat) (s : State) (m : Fin 8) :
    (completeSlot n st k s).slot m = if m = n then { s.slot n with
      state := .done, status := st, foliosDone := k, flags := (s.recordOf n st k).flags
      detail := (s.recordOf n st k).detail, triples := [] } else s.slot m := by
  rw [completeSlot_eq, countCompletion_frame]
  exact slot_setSlot n m _ s

theorem desc_completeSlot (st : Status) (k : Nat) (s : State) : ((completeSlot n st k s).slot m).desc = (s.slot m).desc := by
  rw [slot_completeSlot]
  split
  · next hm => rw [hm]
  · rfl

/-- The condition reads the command's own slot record, the lines, and for a SYNC the states of the older slots. -/
theorem settleMet_completeSlot (st : Status) (k : Nat) (s : State) (hne : m ≠ n)
    (hsync : (s.slot m).desc.cmd = .sync → n ∉ s.older m) : (completeSlot n st k s).settleMet m = s.settleMet m := by
  have hqueue : (completeSlot n st k s).csq.runQueue = s.csq.runQueue := by rw [completeSlot_frame]
  have hline (l : Fin 32) : (completeSlot n st k s).line l = s.line l := by rw [completeSlot_frame]; rfl
  have hslot : (completeSlot n st k s).slot m = s.slot m := by rw [slot_completeSlot, if_neg hne]
  rw [Bool.eq_iff_iff, settleMet_iff, settleMet_iff, hslot, hqueue]
  simp only [hline]
  refine or_congr_right (or_congr_right (and_congr_right fun hcmd => forall₂_congr fun i hi => ?_))
  have hne : i ≠ n := fun he => hsync hcmd (he ▸ hi)
  rw [slot_completeSlot, if_neg hne]

theorem unmet_completeSlot (st : Status) (k : Nat) (h : s.Unmet m) (hsync : (s.slot m).desc.cmd = .sync → n ∉ s.older m) :
    (completeSlot n st k s).Unmet m := by
  intro hs
  by_cases hne : m = n
  · rw [slot_completeSlot, if_pos hne] at hs
    cases hs
  · rw [slot_completeSlot, if_neg hne] at hs
    rw [settleMet_completeSlot st k s hne hsync]
    exact h hs

/-- A slot either is not settled, and waits, or completes. -/
theorem settleSlot_cases (n : Fin 8) (s : State) : (settleSlot n s = s ∧ s.Unmet n)
    ∨ ((s.slot n).state = .settling ∧ s.settleMet n = true ∧ settleSlot n s = completeSlot n .ok (s.slot n).foliosDone s) := by
  unfold settleSlot
  by_cases h : (s.slot n).state = .settling ∧ s.settleMet n = true
  · exact .inr ⟨h.1, h.2, if_pos (by simpa using h)⟩
  · exact .inl ⟨if_neg (by simpa using h), fun hs => by simpa [hs] using h⟩

theorem desc_settleSlot (n m : Fin 8) (s : State) : ((settleSlot n s).slot m).desc = (s.slot m).desc := by
  rcases settleSlot_cases n s with ⟨h, -⟩ | ⟨-, -, h⟩
  · rw [h]
  · rw [h, desc_completeSlot]

theorem runQueue_settleSlot (n : Fin 8) (s : State) : (settleSlot n s).csq.runQueue = s.csq.runQueue := by
  have hframe := settleSlot_frame n s
  rw [SettleFrame] at hframe
  rw [hframe]

theorem unmet_settleSlot_self (n : Fin 8) (s : State) : (settleSlot n s).Unmet n := by
  rcases settleSlot_cases n s with ⟨h, hun⟩ | ⟨-, -, h⟩
  · rwa [h]
  · rw [h]
    intro hs
    rw [slot_completeSlot, if_pos rfl] at hs
    cases hs

theorem unmet_settleSlot (h : s.Unmet m) (hsync : (s.slot m).desc.cmd = .sync → s.Unmet n ∨ n ∉ s.older m) :
    (settleSlot n s).Unmet m := by
  rcases settleSlot_cases n s with ⟨he, -⟩ | ⟨hs, hmet, he⟩
  · rwa [he]
  · rw [he]
    refine unmet_completeSlot _ _ h fun hcmd => (hsync hcmd).resolve_left fun hun => ?_
    rw [hun hs] at hmet
    cases hmet

/-- One of the two passes of `settleSlots`. -/
def settlePass (sel : State → Fin 8 → Bool) (s : State) (n : Fin 8) : State := if sel s n then settleSlot n s else s

theorem settleSlots_eq (s : State) : settleSlots s =
    ((s.csq.runQueue.foldl (settlePass fun u n => !u.isSync n) s).csq.runQueue).foldl (settlePass State.isSync)
      (s.csq.runQueue.foldl (settlePass fun u n => !u.isSync n) s) := by
  have hfirst : (fun (u : State) n => if u.isSync n then u else settleSlot n u) = settlePass fun u n => !u.isSync n := by
    funext u n
    unfold settlePass
    by_cases h : u.isSync n = true
    · simp [h]
    · simp [h]
  unfold settleSlots
  rw [hfirst]
  rfl

section
variable {sel : State → Fin 8 → Bool}

theorem desc_settlePass (s : State) (n m : Fin 8) : ((settlePass sel s n).slot m).desc = (s.slot m).desc := by
  unfold settlePass
  split
  · exact desc_settleSlot n m s
  · rfl

theorem runQueue_settlePass (s : State) (n : Fin 8) : (settlePass sel s n).csq.runQueue = s.csq.runQueue := by
  unfold settlePass
  split
  · exact runQueue_settleSlot n s
  · rfl

/-- After a pass, each command other than a SYNC that the pass evaluates, or that waited before, waits. -/
theorem unmet_foldl_settlePass (l : List (Fin 8)) (s : State) (hm : (s.slot m).desc.cmd ≠ .sync)
    (h : m ∈ l ∧ (∀ u : State, (u.slot m).desc.cmd ≠ .sync → sel u m = true) ∨ s.Unmet m) :
    (l.foldl (settlePass sel) s).Unmet m := by
  induction l generalizing s with
  | nil => exact h.resolve_left fun h => by cases h.1
  | cons n l ih =>
    refine ih _ (by rwa [desc_settlePass]) ?_
    rcases h with ⟨hmem, hsel⟩ | h
    · rcases List.mem_cons.1 hmem with rfl | hmem
      · right
        unfold settlePass
        rw [if_pos (hsel s hm)]
        exact unmet_settleSlot_self m s
      · exact .inl ⟨hmem, hsel⟩
    · right
      unfold settlePass
      split
      · exact unmet_settleSlot h fun hc => absurd hc hm
      · exact h

end

theorem takeWhile_ne_append {l r : List (Fin 8)} (h : m ∈ l) : (l ++ r).takeWhile (· != m) = l.takeWhile (· != m) := by
  induction l with
  | nil => cases h
  | cons x l ih =>
    by_cases hx : x = m
    · simp [hx]
    · have hmem : m ∈ l := (List.mem_cons.1 h).resolve_left (Ne.symm hx)
      simp [hx, ih hmem]

/-- The pass over the SYNCs, oldest first: none that it has passed is met afterwards. -/
theorem unmet_foldl_syncs (done rest : List (Fin 8)) (s : State) (hqueue : s.csq.runQueue = done ++ rest)
    (h : ∀ m ∈ done, (s.slot m).desc.cmd = .sync → s.Unmet m) :
    ∀ m ∈ done ++ rest, (s.slot m).desc.cmd = .sync → (rest.foldl (settlePass State.isSync) s).Unmet m := by
  induction rest generalizing done s with
  | nil => simpa using h
  | cons n rest ih =>
    intro m hm hsync
    rw [List.append_cons] at hm hqueue
    refine ih (done ++ [n]) (settlePass State.isSync s n) (by rw [runQueue_settlePass, hqueue]) (fun i hi hisync => ?_) m hm
      (by rwa [desc_settlePass])
    rw [desc_settlePass] at hisync
    have hself (hn : (s.slot n).desc.cmd = .sync) : (settlePass State.isSync s n).Unmet n := by
      unfold settlePass
      rw [if_pos (show s.isSync n = true by simpa [State.isSync] using hn)]
      exact unmet_settleSlot_self n s
    by_cases hin : i ∈ done
    · have hold := h i hin hisync
      unfold settlePass
      split
      · next hn =>
        have hnsync : (s.slot n).desc.cmd = .sync := by simpa [State.isSync] using hn
        refine unmet_settleSlot hold fun _ => ?_
        by_cases hnd : n ∈ done
        · exact .inl (h n hnd hnsync)
        · right
          unfold State.older
          rw [hqueue, List.append_assoc, takeWhile_ne_append hin]
          exact fun hmem => hnd (List.takeWhile_subset _ hmem)
      · exact hold
    · have hin : i = n := by simpa [hin] using hi
      exact hin ▸ hself (hin ▸ hisync)

/-- After the evaluation of every settle condition, none is met (R30). -/
theorem unmet_settleSlots (s : State) : ∀ n ∈ (settleSlots s).csq.runQueue, (settleSlots s).Unmet n := by
  have hframe := settleSlots_frame s
  rw [SettleFrame] at hframe
  have hqueue : (settleSlots s).csq.runQueue = s.csq.runQueue := by rw [hframe]
  rw [hqueue, settleSlots_eq]
  intro n hn
  obtain ⟨u, hu⟩ : ∃ u, u = s.csq.runQueue.foldl (settlePass fun u n => !u.isSync n) s := ⟨_, rfl⟩
  have hdesc (l : List (Fin 8)) (v : State) (m : Fin 8) :
      ((l.foldl (settlePass fun u n => !u.isSync n) v).slot m).desc = (v.slot m).desc :=
    foldl_keeps (fun v => (v.slot m).desc) (fun v i => desc_settlePass v i m) l v
  have hsame : u.csq.runQueue = s.csq.runQueue := by
    rw [hu]
    exact foldl_keeps (fun v => v.csq.runQueue) (fun v i => runQueue_settlePass v i) _ s
  rw [← hu]
  by_cases hsync : (s.slot n).desc.cmd = .sync
  · refine unmet_foldl_syncs [] u.csq.runQueue u rfl nofun n (by rwa [hsame]) ?_
    rw [hu, hdesc]
    exact hsync
  · have hcmd : (u.slot n).desc.cmd ≠ .sync := by
      rw [hu, hdesc]
      exact hsync
    refine unmet_foldl_settlePass _ u hcmd (.inr ?_)
    rw [hu]
    exact unmet_foldl_settlePass _ s hsync (.inl ⟨hn, fun v hv => by simpa [State.isSync] using hv⟩)

/-! ### The port owner -/

/-- The port owner after its choice, where it is a new one (R47). -/
theorem chooseOwner_new (h : (chooseOwner s).dp.owner = some n) (hnew : s.dp.owner = none) :
    s.ntc.pendingFault .f4 = false ∧ s.csq.runQueue.find? s.portEligible = some n
      ∧ chooseOwner s = setEvent .data { s with dp := { s.dp with owner := some n } } := by
  unfold chooseOwner at h ⊢
  rw [hnew] at h ⊢
  cases hf4 : s.ntc.pendingFault .f4 with
  | true =>
    rw [hf4] at h
    exact absurd (hnew.symm.trans h) nofun
  | false =>
    rw [hf4] at h
    cases hfind : s.csq.runQueue.find? s.portEligible with
    | none =>
      rw [hfind] at h
      exact absurd (hnew.symm.trans h) nofun
    | some k =>
      rw [hfind] at h
      cases h
      exact ⟨rfl, rfl, rfl⟩

theorem chooseOwner_none (h : (chooseOwner s).dp.owner = none) (hf4 : s.ntc.pendingFault .f4 = false) :
    s.csq.runQueue.find? s.portEligible = none := by
  unfold chooseOwner at h
  cases hold : s.dp.owner with
  | some k =>
    rw [hold] at h
    cases hold.symm.trans h
  | none =>
    rw [hold, hf4] at h
    cases hfind : s.csq.runQueue.find? s.portEligible with
    | none => rfl
    | some k => rw [hfind] at h; cases h

/-- No slot older than the first eligible one is eligible. -/
theorem older_of_find {p : Fin 8 → Bool} {l : List (Fin 8)} (h : l.find? p = some n) : ∀ m ∈ l.takeWhile (· != n), p m = false := by
  obtain ⟨hn, as, bs, rfl, has⟩ := List.find?_eq_some_iff_append.1 h
  have hfresh : ∀ m ∈ as, (m != n) = true := fun m hm => bne_iff_ne.2 fun he => by
    have := has m hm
    rw [he, hn] at this
    cases this
  rw [List.takeWhile_append_of_pos hfresh]
  simpa using has

/-! ### Buffer assignment -/

/-- Slot `n` waits for a buffer (R33). -/
def State.waitsBuffer (s : State) (n : Fin 8) : Prop :=
  (s.slot n).desc.cmd ∈ [Cmd.read, .write, .describe, .health] ∧ (s.slot n).state = .queued ∧ ∀ b, (s.buf b).holder ≠ some n

theorem bufOf_eq_none_iff (s : State) (n : Fin 8) : s.bufOf n = none ↔ ∀ b, (s.buf b).holder ≠ some n := by
  unfold State.bufOf
  constructor
  · intro h b
    split_ifs at h with h0 h1
    cases b with
    | tb0 => exact h0
    | tb1 => exact h1
  · intro h
    exact (if_neg (h .tb0)).trans (if_neg (h .tb1))

theorem waitsBuffer_iff (s : State) (n : Fin 8) : s.waitsBuffer n ↔
    ((s.slot n).desc.cmd.isData && (s.slot n).state = .queued && (s.bufOf n).isNone) = true := by
  have hdata (c : Cmd) : c ∈ [Cmd.read, .write, .describe, .health] ↔ c.isData = true := by cases c <;> decide
  unfold State.waitsBuffer
  rw [hdata, ← bufOf_eq_none_iff]
  simp [and_assoc]

theorem nextForBuffer_iff (s : State) (l : List (Fin 8)) (n : Fin 8) : s.nextForBuffer l = some n ↔
    ∃ older rest, l = older ++ n :: rest ∧ s.waitsBuffer n
      ∧ ∀ m ∈ older, ¬s.waitsBuffer m ∧ ((s.slot m).desc.cmd = .sleep → (s.slot m).state = .done) := by
  have hsleep (k : Fin 8) (hk : s.waitsBuffer k) : ¬((s.slot k).desc.cmd = .sleep && (s.slot k).state != .done) = true := by
    intro h
    simp only [Bool.and_eq_true, decide_eq_true_eq] at h
    have hmem := hk.1
    rw [h.1] at hmem
    exact absurd hmem (by decide)
  induction l with
  | nil => simp [State.nextForBuffer]
  | cons k l ih =>
    rw [State.nextForBuffer]
    by_cases hk : s.waitsBuffer k
    · rw [if_neg (hsleep k hk), if_pos ((waitsBuffer_iff s k).1 hk)]
      constructor
      · intro h
        cases h
        exact ⟨[], l, rfl, hk, nofun⟩
      · rintro ⟨older, rest, hl, hn, hall⟩
        cases older with
        | nil => cases hl; rfl
        | cons j older =>
          cases hl
          exact absurd hk (hall k List.mem_cons_self).1
    · by_cases hs : ((s.slot k).desc.cmd = .sleep && (s.slot k).state != .done) = true
      · rw [if_pos hs]
        refine iff_of_false nofun ?_
        rintro ⟨older, rest, hl, hn, hall⟩
        simp only [Bool.and_eq_true, decide_eq_true_eq, bne_iff_ne] at hs
        cases older with
        | nil => cases hl; exact hk hn
        | cons j older =>
          cases hl
          exact hs.2 ((hall k List.mem_cons_self).2 hs.1)
      · rw [if_neg hs, if_neg (mt (waitsBuffer_iff s k).2 hk)]
        refine ih.trans ?_
        have hdone : (s.slot k).desc.cmd = .sleep → (s.slot k).state = .done := by simpa using hs
        constructor
        · rintro ⟨older, rest, rfl, hn, hall⟩
          exact ⟨k :: older, rest, rfl, hn, List.forall_mem_cons.2 ⟨⟨hk, hdone⟩, hall⟩⟩
        · rintro ⟨older, rest, hl, hn, hall⟩
          cases older with
          | nil => cases hl; exact absurd hn hk
          | cons j older =>
            cases hl
            exact ⟨older, rest, rfl, hn, fun m hm => hall m (List.mem_cons_of_mem _ hm)⟩

theorem freeBuffer_iff (s : State) (b : BufId) : s.freeBuffer = some b ↔
    (s.buf b).holder = none ∧ (b = .tb1 → (s.buf .tb0).holder ≠ none) := by
  unfold State.freeBuffer State.buf
  cases b with
  | tb0 => cases s.dp.tb0.holder <;> cases s.dp.tb1.holder <;> simp
  | tb1 => cases s.dp.tb0.holder <;> cases s.dp.tb1.holder <;> simp

/-- Buffer `b` is given to slot `n` (R33). -/
def State.givesBuffer (s : State) (b : BufId) (n : Fin 8) : Prop :=
  s.mount = none ∧ s.rst.portReset = false ∧ s.rst.inReset = none
    ∧ (s.buf b).holder = none ∧ (b = .tb1 → (s.buf .tb0).holder ≠ none)
    ∧ ∃ older rest, s.csq.runQueue = older ++ n :: rest ∧ s.waitsBuffer n
      ∧ ∀ m ∈ older, ¬s.waitsBuffer m ∧ ((s.slot m).desc.cmd = .sleep → (s.slot m).state = .done)

theorem givesBuffer_iff (s : State) (b : BufId) (n : Fin 8) : s.givesBuffer b n ↔
    ¬(s.mount.isSome || s.held || s.rst.inReset.isSome) = true ∧ s.freeBuffer = some b
      ∧ s.nextForBuffer s.csq.runQueue = some n := by
  rw [nextForBuffer_iff, freeBuffer_iff]
  unfold State.givesBuffer State.held
  simp [and_assoc]

theorem assignOne_gives {b : BufId} (h : s.givesBuffer b n) :
    assignOne s = setBuf b { holder := some n, words := [], consumed := 0 }
      (if (s.slot n).desc.cmd = .write then setSlot n { s.slot n with state := .loading } s else s) := by
  obtain ⟨hopen, hfree, hnext⟩ := (givesBuffer_iff s b n).1 h
  unfold assignOne
  rw [if_neg hopen, hfree, hnext]
  cases b with
  | tb0 =>
    change (if (s.slot n).desc.cmd = .write then _ else _) = _
    split
    · rfl
    · rfl
  | tb1 =>
    change (if (s.slot n).desc.cmd = .write then _ else _) = _
    split
    · rfl
    · rfl

theorem assignOne_stays (h : ∀ b n, ¬s.givesBuffer b n) : assignOne s = s := by
  unfold assignOne
  split
  · rfl
  · next hopen =>
    split
    · next b n hb hn => exact absurd ((givesBuffer_iff s b n).2 ⟨hopen, hb, hn⟩) (h b n)
    · rfl

theorem buf_assignOne {b : BufId} (h : s.givesBuffer b n) (c : BufId) :
    (assignOne s).buf c = if c = b then { holder := some n, words := [], consumed := 0 } else s.buf c := by
  rw [assignOne_gives h, buf_setBuf]
  split
  · rfl
  · split
    · rfl
    · rfl

/-- There are two buffers: after two assignments none is left to give. -/
theorem not_gives_assignBuffers (s : State) (b : BufId) (n : Fin 8) : ¬(assignBuffers s).givesBuffer b n := by
  unfold assignBuffers
  by_cases hfirst : ∃ b n, s.givesBuffer b n
  · obtain ⟨b1, n1, h1⟩ := hfirst
    by_cases hsecond : ∃ b n, (assignOne s).givesBuffer b n
    · obtain ⟨b2, n2, h2⟩ := hsecond
      rintro ⟨-, -, -, hfree, -⟩
      have hne : b2 ≠ b1 := by
        rintro rfl
        have hheld := h2.2.2.2.1
        rw [buf_assignOne h1, if_pos rfl] at hheld
        cases hheld
      rw [buf_assignOne h2, buf_assignOne h1] at hfree
      have hall : b = b2 ∨ b = b1 := by
        cases b <;> cases b1 <;> cases b2 <;> simp_all
      rcases hall with rfl | rfl
      · rw [if_pos rfl] at hfree
        cases hfree
      · rw [if_neg (Ne.symm hne), if_pos rfl] at hfree
        cases hfree
    · have hnone : ∀ b n, ¬(assignOne s).givesBuffer b n := fun b n h => hsecond ⟨b, n, h⟩
      rw [assignOne_stays hnone]
      exact hnone b n
  · have hnone : ∀ b n, ¬s.givesBuffer b n := fun b n h => hfirst ⟨b, n, h⟩
    rw [assignOne_stays hnone, assignOne_stays hnone]
    exact hnone b n

/-! ### The statement -/

theorem raised_settleMediaPower (s : State) : Raised 0x80 s (settleMediaPower s) := by
  by_cases hc : s.cancelled
  · rw [settleMediaPower_cancelled hc]
    exact ⟨BitVec.twoPow 9 7, rfl, by decide⟩
  · rw [settleMediaPower_other hc]
    exact .of_eq rfl

/-- The end of a unit after settling, as far as slots, buffers and queue go. -/
theorem endUnit_settled (s : State) : ∃ c, c = settleSlots (assignBuffers (evalDraining (evalMedia (releaseRetry s))))
    ∧ (endUnit s).csq = c.csq ∧ (endUnit s).fc = c.fc ∧ (endUnit s).dp = (chooseOwner c).dp
    ∧ (endUnit s).ntc.faults = c.ntc.faults ∧ (c.dp.owner = s.dp.owner ∨ c.dp.owner = none)
    ∧ Raised 0x80 (chooseOwner c) (endUnit s) := by
  refine ⟨_, rfl, ?_, ?_, ?_, ?_, ?_, ?_⟩
  · rw [endUnit_eq, settleMediaPower_frame, evaluated, chooseOwner_frame]
    rfl
  · rw [endUnit_eq, settleMediaPower_frame, evaluated, chooseOwner_frame]
    rfl
  · rw [endUnit_eq, settleMediaPower_frame]
    rfl
  · rw [endUnit_eq, settleMediaPower_frame, evaluated, chooseOwner_frame]
    rfl
  · have howner := (settleSlots_settled (assignBuffers (evalDraining (evalMedia (releaseRetry s))))).owner
    have hbefore : (assignBuffers (evalDraining (evalMedia (releaseRetry s)))).dp.owner = s.dp.owner := by
      unfold assignBuffers
      rw [assignOne_frame, assignOne_frame, releaseRetry_frame, evalMedia_frame]
      rfl
    rw [← hbefore]
    exact howner
  · exact raised_settleMediaPower _

/-- Settles O7. -/
theorem unitEndSettlesAndGrantsThePort : Obligations.UnitEndSettlesAndGrantsThePort := by
  unfold Obligations.UnitEndSettlesAndGrantsThePort
  intro s
  obtain ⟨c, hc, hcsq, hfc, hdp, hfaults, howner, hraised⟩ := endUnit_settled s
  have hmet (n : Fin 8) : (endUnit s).settleMet n = c.settleMet n := by
    unfold State.settleMet State.hasMark State.older State.slot
    rw [hcsq, hfc]
  have heligible (n : Fin 8) : (endUnit s).portEligible n = c.portEligible n := by
    unfold State.portEligible State.wordsRemaining State.wordsOf State.consumedOf State.bufOf State.buf State.slot
    rw [hcsq, hdp, chooseOwner_frame]
  have hf4 : (endUnit s).ntc.pendingFault .f4 = c.ntc.pendingFault .f4 := by
    unfold Ntc.pendingFault
    rw [hfaults]
  have heligible' : (endUnit s).portEligible = c.portEligible := funext heligible
  refine ⟨fun n hn hnew => ?_, fun hn hpending => ?_, fun n hn hs => ?_, settleMet_iff s, portEligible_iff s, ?_, rfl,
    fun b n h => assignOne_gives h, fun h => assignOne_stays h, rfl, fun b n h => not_gives_assignBuffers s b n h⟩
  · rw [hdp] at hn
    have hfree : c.dp.owner = none := by
      by_contra hsome
      have hsame : (chooseOwner c).dp.owner = c.dp.owner := by
        unfold chooseOwner
        rw [Option.isSome_iff_ne_none.2 hsome]
        rfl
      rcases howner with ho | ho
      · exact hnew (by rw [← ho, ← hsame, hn])
      · exact hsome ho
    obtain ⟨hno, hfind, heq⟩ := chooseOwner_new hn hfree
    refine ⟨by rw [heligible]; exact List.find?_some hfind, fun m hm => ?_, by rw [hf4, hno], ?_⟩
    · rw [heligible]
      unfold State.older at hm
      rw [hcsq] at hm
      exact older_of_find hfind m hm
    · rw [hraised.pendingEvent (by decide) (by decide), heq]
      change (c.ntc.evPending ||| BitVec.twoPow 9 0).getLsbD 0 = true
      simp
  · rw [hdp] at hn
    rw [hf4] at hpending
    have hnone := chooseOwner_none hn hpending
    intro m hm
    rw [hcsq] at hm
    rw [heligible]
    simpa using List.find?_eq_none.1 hnone m hm
  · rw [hcsq] at hn
    rw [hmet]
    unfold State.slot at hs
    rw [hcsq] at hs
    rw [hc] at hn hs ⊢
    exact unmet_settleSlots _ n hn hs
  · have hends (u : State) (n : Fin 8) : settleSlot n u = if (u.slot n).state = .settling ∧ u.settleMet n = true then
        completeSlot n .ok (u.slot n).foliosDone u else u := by
      unfold settleSlot
      simp only [Bool.and_eq_true, decide_eq_true_eq]
    have hsync (u : State) (n : Fin 8) : u.isSync n = true ↔ (u.slot n).desc.cmd = .sync := beq_iff_eq
    unfold settleSlots
    simp only [hsync, hends]

end Sys2Proof.Machine
end

section
/-! The FREE groups and the open groups at the end of a unit (O5, R120, R121). -/

namespace Sys2Proof.Machine

variable {s t u : State}

/-! ### The least candidate -/

theorem leastBy_eq_none {α : Type} {rank : α → List Nat} {l : List α} (h : leastBy rank l = none) : l = [] := by
  cases l with
  | nil => rfl
  | cons x l =>
    rw [leastBy] at h
    split at h
    · cases h
    · split at h
      · cases h
      · cases h

/-- `leastBy` gives a candidate of lowest rank. -/
theorem leastBy_eq_some {α : Type} {rank : α → List Nat} {l : List α} {x : α} (h : leastBy rank l = some x) :
    x ∈ l ∧ ∀ y ∈ l, ¬rank y < rank x := by
  induction l generalizing x with
  | nil => cases h
  | cons z l ih =>
    rw [leastBy] at h
    split at h
    · next hnone =>
      cases h
      rw [leastBy_eq_none hnone]
      simp
    · next y hy =>
      obtain ⟨hmem, hall⟩ := ih hy
      split at h
      · next hlt =>
        cases h
        exact ⟨List.mem_cons_of_mem _ hmem, List.forall_mem_cons.2 ⟨fun hgt => List.lt_asymm hlt hgt, hall⟩⟩
      · next hle =>
        cases h
        refine ⟨List.mem_cons_self, List.forall_mem_cons.2 ⟨List.lt_irrefl _, fun w hw hlt => ?_⟩⟩
        exact hle (List.lt_of_le_of_lt (hall w hw) hlt)

theorem pair_lt_iff {a b c d : Nat} : [a, b] < [c, d] ↔ a < c ∨ (a = c ∧ b < d) := by
  simp [List.cons_lt_cons_iff]

/-! ### Sparse tables, counted -/

theorem length_filter_range {α : Type} {l : List (Nat × α)} (h : sparseWf l = true) {k : Nat} (hk : ∀ p ∈ l, p.1 < k)
    (d : α) (q : α → Bool) (hd : q d = false) :
    (l.filter fun p => q p.2).length = ((List.range k).filter fun g => q ((sparseGet g l).getD d)).length := by
  have hkeys : ((l.filter fun p => q p.2).map Prod.fst).Nodup := by
    have hlt : (l.filter fun p => q p.2).Pairwise fun a b => a.1 < b.1 := ((sparseWf_iff l).1 h).filter _
    exact (List.pairwise_map.2 (hlt.imp fun h => Nat.ne_of_lt h))
  rw [← List.length_map Prod.fst]
  refine List.Perm.length_eq ((List.perm_ext_iff_of_nodup hkeys (List.nodup_range.filter _)).2 fun g => ?_)
  simp only [List.mem_map, List.mem_filter, List.mem_range]
  constructor
  · rintro ⟨⟨j, v⟩, ⟨hmem, hq⟩, rfl⟩
    rw [(sparseGet_eq_some h).2 hmem]
    exact ⟨hk _ hmem, hq⟩
  · rintro ⟨-, hq⟩
    cases hg : sparseGet g l with
    | none =>
      rw [hg] at hq
      rw [Option.getD_none, hd] at hq
      cases hq
    | some v =>
      rw [hg] at hq
      exact ⟨(g, v), ⟨(sparseGet_eq_some h).1 hg, hq⟩, rfl⟩

/-! ### The group table -/

/-- The group table in canonical form, with the groups of the part. -/
structure GroupTable (s : State) : Prop where
  wf : sparseWf s.mm.groups = true
  bound : ∀ p ∈ s.mm.groups, p.1 < 4096

/-- The number of groups in a state. -/
def State.number (s : State) (st : GroupState) : Nat := ((List.range 4096).filter fun g => (s.group g).state == st).length

namespace GroupTable

theorem mem_groups_iff (h : GroupTable s) (g : Nat) (x : Group) : (g, x) ∈ s.mm.groups ↔ sparseGet g s.mm.groups = some x :=
  (sparseGet_eq_some h.wf).symm

theorem length_filter (h : GroupTable s) (q : Group → Bool) (hq : q Group.fresh = false) :
    (s.mm.groups.filter fun p => q p.2).length = ((List.range 4096).filter fun g => q (s.group g)).length :=
  length_filter_range h.wf h.bound Group.fresh q hq

theorem length_groupsIn (h : GroupTable s) {st : GroupState} (hst : st ≠ .free) : (s.groupsIn st).length = s.number st := by
  unfold State.groupsIn State.number
  rw [List.length_map]
  exact h.length_filter (fun x => x.state == st) (by simpa [Group.fresh] using Ne.symm hst)

theorem mem_groupsIn (h : GroupTable s) {st : GroupState} (hst : st ≠ .free) (g : Nat) :
    g ∈ s.groupsIn st ↔ g < 4096 ∧ (s.group g).state = st := by
  unfold State.groupsIn State.group
  simp only [List.mem_map, List.mem_filter, beq_iff_eq]
  constructor
  · rintro ⟨⟨j, x⟩, ⟨hmem, hx⟩, rfl⟩
    rw [(h.mem_groups_iff j x).1 hmem]
    exact ⟨h.bound _ hmem, hx⟩
  · rintro ⟨-, hx⟩
    cases hg : sparseGet g s.mm.groups with
    | none =>
      rw [hg] at hx
      exact absurd hx.symm hst
    | some x =>
      rw [hg] at hx
      exact ⟨(g, x), ⟨(h.mem_groups_iff g x).2 hg, hx⟩, rfl⟩

theorem freeCount_eq (h : GroupTable s) : s.freeCount = s.number .free := by
  have hsize : Config.numGroups = 4096 := rfl
  have hother := h.length_filter (fun x => x.state != .free) rfl
  have hsplit := List.length_eq_length_filter_add (l := List.range 4096) fun g => (s.group g).state == .free
  have hnot : ((List.range 4096).filter fun g => !(s.group g).state == .free)
      = (List.range 4096).filter fun g => (s.group g).state != .free := rfl
  rw [List.length_range, hnot] at hsplit
  unfold State.freeCount State.number
  omega

theorem putGroup (h : GroupTable s) {g : Nat} (hg : g < 4096) (x : Group) : GroupTable (putGroup g x s) := by
  unfold Machine.putGroup
  refine ⟨?_, fun p hp => ?_⟩
  · dsimp only
    split
    · exact sparseDrop_wf _ h.wf
    · exact sparsePut_wf _ _ h.wf
  · dsimp only at hp
    split at hp
    · exact h.bound p (List.mem_of_mem_filter hp)
    · rcases mem_sparsePut hp with rfl | hp
      · exact hg
      · exact h.bound p hp

theorem congr (h : GroupTable s) (ht : t.mm.groups = s.mm.groups) : GroupTable t := ⟨ht ▸ h.wf, ht ▸ h.bound⟩

end GroupTable

/-- Group `g` is a FREE group of the part. -/
def State.IsFree (s : State) (g : Nat) : Prop := g < 4096 ∧ (s.group g).state = .free

/-- `g` is the one of lowest erase count that `p` selects, and among those the one of lowest number. -/
def State.First (s : State) (g : Nat) (p : Nat → Prop) : Prop := p g ∧ ∀ h, p h →
  (s.group g).erases < (s.group h).erases ∨ ((s.group g).erases = (s.group h).erases ∧ g ≤ h)

namespace GroupTable

/-- The candidates of `freeGroup` are FREE groups with their erase counts, and one of them is at least as good as any FREE
group. -/
theorem freeGroup_spec (h : GroupTable s) :
    (∀ g, s.freeGroup = some g → s.First g s.IsFree) ∧ (s.freeGroup = none → ∀ g, ¬s.IsFree g) := by
  obtain ⟨-, hgap, hbelow⟩ := sparseGap_spec h.wf 0
  obtain ⟨all, hall⟩ : ∃ all, all = (if sparseGap 0 s.mm.groups < Config.numGroups then
    (sparseGap 0 s.mm.groups, 0) :: ((s.mm.groups.filter fun p => p.2.state == .free).map fun p => (p.1, p.2.erases))
    else (s.mm.groups.filter fun p => p.2.state == .free).map fun p => (p.1, p.2.erases)) := ⟨_, rfl⟩
  have hfree : s.freeGroup = (leastBy (fun p => [p.2, p.1]) all).map fun p => p.1 := by rw [hall]; rfl
  have hcandidate (p : Nat × Nat) : p ∈ all ↔
      (p = (sparseGap 0 s.mm.groups, 0) ∧ sparseGap 0 s.mm.groups < 4096)
        ∨ ∃ x, sparseGet p.1 s.mm.groups = some x ∧ x.state = .free ∧ x.erases = p.2 := by
    have hlisted : p ∈ ((s.mm.groups.filter fun p => p.2.state == .free).map fun p => (p.1, p.2.erases)) ↔
        ∃ x, sparseGet p.1 s.mm.groups = some x ∧ x.state = .free ∧ x.erases = p.2 := by
      simp only [List.mem_map, List.mem_filter, beq_iff_eq]
      constructor
      · rintro ⟨⟨j, x⟩, ⟨hmem, hx⟩, rfl⟩
        exact ⟨x, (h.mem_groups_iff j x).1 hmem, hx, rfl⟩
      · rintro ⟨x, hget, hx, he⟩
        exact ⟨(p.1, x), ⟨(h.mem_groups_iff _ x).2 hget, hx⟩, by rw [he]⟩
    rw [hall, ← hlisted]
    split
    · next hlt => rw [List.mem_cons]; exact or_congr_left (iff_self_and.2 fun _ => hlt)
    · next hge => simp [show ¬sparseGap 0 s.mm.groups < 4096 from hge]
  have hunlisted (g : Nat) (hg : sparseGet g s.mm.groups = none) : s.group g = Group.fresh := by
    rw [State.group, hg]
    rfl
  have hgapnone : sparseGet (sparseGap 0 s.mm.groups) s.mm.groups = none := sparseGet_eq_none hgap
  have hsound (p : Nat × Nat) (hp : p ∈ all) : s.IsFree p.1 ∧ (s.group p.1).erases = p.2 := by
    rcases (hcandidate p).1 hp with ⟨rfl, hlt⟩ | ⟨x, hget, hx, he⟩
    · unfold State.IsFree
      rw [hunlisted _ hgapnone]
      exact ⟨⟨hlt, rfl⟩, rfl⟩
    · unfold State.IsFree State.group
      rw [hget]
      exact ⟨⟨h.bound _ ((h.mem_groups_iff _ x).2 hget), hx⟩, he⟩
  have hcovers (g : Nat) (hg : s.IsFree g) :
      ∃ p ∈ all, p.2 < (s.group g).erases ∨ (p.2 = (s.group g).erases ∧ p.1 ≤ g) := by
    cases hget : sparseGet g s.mm.groups with
    | some x =>
      have hx : s.group g = x := by rw [State.group, hget]; rfl
      refine ⟨(g, x.erases), (hcandidate _).2 (.inr ⟨x, hget, hx ▸ hg.2, rfl⟩), .inr ⟨by rw [hx], le_refl g⟩⟩
    | none =>
      have hle : sparseGap 0 s.mm.groups ≤ g := by
        by_contra hlt
        obtain ⟨p, hp, hpg⟩ := hbelow g (Nat.zero_le g) (not_le.1 hlt)
        exact (sparseGet_eq_none_iff g _).1 hget p hp hpg
      refine ⟨(sparseGap 0 s.mm.groups, 0), (hcandidate _).2 (.inl ⟨rfl, lt_of_le_of_lt hle hg.1⟩), .inr ⟨?_, hle⟩⟩
      rw [hunlisted g hget]
      rfl
  rw [hfree]
  refine ⟨fun g hg => ?_, fun hnone g hg => ?_⟩
  · obtain ⟨p, hp, rfl⟩ := Option.map_eq_some_iff.1 hg
    obtain ⟨hmem, hleast⟩ := leastBy_eq_some hp
    obtain ⟨hpfree, hperases⟩ := hsound p hmem
    refine ⟨hpfree, fun k hk => ?_⟩
    obtain ⟨q, hq, hqk⟩ := hcovers k hk
    have hnot := hleast q hq
    rw [pair_lt_iff] at hnot
    omega
  · obtain ⟨p, hp, -⟩ := hcovers g hg
    rw [Option.map_eq_none_iff] at hnone
    rw [leastBy_eq_none hnone] at hp
    cases hp

theorem freeCount_pos (h : GroupTable s) {g : Nat} (hg : s.IsFree g) : 1 ≤ s.freeCount := by
  rw [h.freeCount_eq]
  exact List.length_pos_of_mem (List.mem_filter.2 ⟨List.mem_range.2 hg.1, by simp [hg.2]⟩)

theorem freeGroup_of_pos (h : GroupTable s) (hpos : 1 ≤ s.freeCount) : ∃ g, s.freeGroup = some g := by
  cases hfree : s.freeGroup with
  | some g => exact ⟨g, rfl⟩
  | none =>
    rw [h.freeCount_eq] at hpos
    obtain ⟨g, hg⟩ := List.exists_mem_of_length_pos hpos
    obtain ⟨hlt, hst⟩ := List.mem_filter.1 hg
    exact absurd ⟨List.mem_range.1 hlt, beq_iff_eq.1 hst⟩ (h.freeGroup_spec.2 hfree g)

/-- A FREE group that is opened is one FREE group fewer. -/
theorem freeCount_openGroup (h : GroupTable s) {g : Nat} (hg : s.IsFree g) : (openGroup g s).freeCount + 1 = s.freeCount := by
  have htable : GroupTable (openGroup g s) := h.putGroup hg.1 _
  have herase : ((List.range 4096).filter fun i => ((openGroup g s).group i).state == .free)
      = ((List.range 4096).filter fun i => (s.group i).state == .free).erase g := by
    rw [(List.nodup_range.filter _).erase_eq_filter, List.filter_filter]
    refine List.filter_congr fun i _ => ?_
    unfold openGroup
    rw [group_putGroup]
    by_cases hi : i = g
    · subst hi
      simp
    · simp [hi]
  have hmem : g ∈ (List.range 4096).filter fun i => (s.group i).state == .free :=
    List.mem_filter.2 ⟨List.mem_range.2 hg.1, by simp [hg.2]⟩
  rw [htable.freeCount_eq, h.freeCount_eq]
  unfold State.number
  rw [herase, List.length_erase_of_mem hmem]
  have := List.length_pos_of_mem hmem
  omega

end GroupTable

/-! ### The open groups -/

theorem takeReclaimOpen_cases (h : GroupTable s) :
    (takeReclaimOpen s = s ∧ (s.mm.reclaimOpen = none → s.freeCount = 0))
      ∨ ∃ g, s.mm.reclaimOpen = none ∧ s.First g s.IsFree
        ∧ takeReclaimOpen s = openGroup g { s with mm := { s.mm with reclaimOpen := some g } } := by
  unfold takeReclaimOpen
  by_cases hc : s.mm.reclaimOpen = none ∧ 1 ≤ s.freeCount
  · obtain ⟨g, hg⟩ := h.freeGroup_of_pos hc.2
    refine .inr ⟨g, hc.1, h.freeGroup_spec.1 g hg, ?_⟩
    rw [if_pos (by simpa using hc), hg]
  · refine .inl ⟨if_neg (by simpa using hc), fun hnone => ?_⟩
    by_contra hpos
    exact hc ⟨hnone, Nat.pos_of_ne_zero hpos⟩

theorem takeHostOpen_cases (h : GroupTable s) :
    (takeHostOpen s = s ∧ (s.mm.hostOpen = none → s.freeCount < 2))
      ∨ ∃ g, s.mm.hostOpen = none ∧ 2 ≤ s.freeCount ∧ s.First g s.IsFree
        ∧ takeHostOpen s = openGroup g { s with mm := { s.mm with hostOpen := some g } } := by
  unfold takeHostOpen
  by_cases hc : s.mm.hostOpen = none ∧ 2 ≤ s.freeCount
  · obtain ⟨g, hg⟩ := h.freeGroup_of_pos (le_trans (by decide) hc.2)
    refine .inr ⟨g, hc.1, hc.2, h.freeGroup_spec.1 g hg, ?_⟩
    rw [if_pos (by simpa using hc), hg]
  · exact .inl ⟨if_neg (by simpa using hc), fun hnone => not_le.1 fun hpos => hc ⟨hnone, hpos⟩⟩

/-- What the choice of open groups leaves, from `s` to `t` (R121). -/
structure RolesFilled (s t : State) : Prop where
  reclaimStands : ∀ g, s.mm.reclaimOpen = some g → t.mm.reclaimOpen = some g
  hostStands : ∀ g, s.mm.hostOpen = some g → t.mm.hostOpen = some g
  reclaimFirst : ∀ g, s.mm.reclaimOpen = none ∧ t.mm.reclaimOpen = some g → s.First g s.IsFree
  reclaimEmpty : t.mm.reclaimOpen = none → ∀ g, ¬s.IsFree g
  hostFirst : ∀ g, s.mm.hostOpen = none ∧ t.mm.hostOpen = some g →
    s.First g fun h => s.IsFree h ∧ ¬(s.mm.reclaimOpen = none ∧ t.mm.reclaimOpen = some h)
  hostEmpty : t.mm.hostOpen = none ↔ s.mm.hostOpen = none ∧ s.number .free < if s.mm.reclaimOpen = none then 3 else 2
  groups : ∀ g, t.group g = { s.group g with
    state := if (s.mm.reclaimOpen = none ∧ t.mm.reclaimOpen = some g) ∨ (s.mm.hostOpen = none ∧ t.mm.hostOpen = some g)
      then .opened else (s.group g).state }

theorem group_openGroup (g h : Nat) (s : State) :
    (openGroup g s).group h = { s.group h with state := if h = g then .opened else (s.group h).state } := by
  unfold openGroup
  rw [group_putGroup]
  split
  · next hg => rw [hg]
  · rfl

/-- The reclaim open group is taken first, and the host open group from what is left (R121). -/
theorem rolesFilled (h : GroupTable s) : RolesFilled s (takeHostOpen (takeReclaimOpen s)) := by
  have hnum := h.freeCount_eq
  rcases takeReclaimOpen_cases h with ⟨hr, hzero⟩ | ⟨g, hnone, hg, hr⟩
  · rw [hr]
    have hno (hrec : s.mm.reclaimOpen = none) (k : Nat) : ¬s.IsFree k := fun hk => by
      have := h.freeCount_pos hk
      have := hzero hrec
      omega
    rcases takeHostOpen_cases h with ⟨hh, htwo⟩ | ⟨k, hknone, hktwo, hk, hh⟩
    · rw [hh]
      refine ⟨fun _ => id, fun _ => id, fun k hk => ?_, hno, fun k hk => ?_, ⟨fun hhost => ⟨hhost, ?_⟩, And.left⟩, fun k => ?_⟩
      · exact absurd (hk.1.symm.trans hk.2) nofun
      · exact absurd (hk.1.symm.trans hk.2) nofun
      · have := htwo hhost
        split <;> omega
      · rw [if_neg]
        rintro (hk | hk)
        · exact absurd (hk.1.symm.trans hk.2) nofun
        · exact absurd (hk.1.symm.trans hk.2) nofun
    · rw [hh]
      refine ⟨fun _ => id, fun j hj => absurd (hknone.symm.trans hj) nofun, fun j hj => ?_, hno, fun j hj => ?_,
        ⟨nofun, fun hlt => ?_⟩, fun j => ?_⟩
      · exact absurd (hj.1.symm.trans hj.2) nofun
      · cases hj.2
        refine ⟨⟨hk.1, fun hc => ?_⟩, fun i hi => hk.2 i hi.1⟩
        exact absurd (hc.1.symm.trans hc.2) nofun
      · have hlt := hlt.2
        by_cases hrec : s.mm.reclaimOpen = none
        · have := hzero hrec
          omega
        · rw [if_neg hrec] at hlt
          omega
      · rw [group_openGroup]
        have hiff : ((s.mm.reclaimOpen = none ∧ s.mm.reclaimOpen = some j) ∨ (s.mm.hostOpen = none ∧ some k = some j)) ↔ j = k := by
          constructor
          · rintro (hc | hc)
            · exact absurd (hc.1.symm.trans hc.2) nofun
            · exact (Option.some.inj hc.2).symm
          · rintro rfl
            exact .inr ⟨hknone, rfl⟩
        exact congrArg (fun x => { s.group j with state := x }) (if_congr hiff.symm rfl rfl)
  · have hbase : GroupTable { s with mm := { s.mm with reclaimOpen := some g } } := h.congr rfl
    have hopened : GroupTable (openGroup g { s with mm := { s.mm with reclaimOpen := some g } }) := hbase.putGroup hg.1.1 _
    have hcount : (openGroup g { s with mm := { s.mm with reclaimOpen := some g } }).freeCount + 1 = s.freeCount :=
      hbase.freeCount_openGroup hg.1
    have hfree (k : Nat) : (openGroup g { s with mm := { s.mm with reclaimOpen := some g } }).IsFree k ↔ s.IsFree k ∧ k ≠ g := by
      unfold State.IsFree
      rw [group_openGroup]
      by_cases hk : k = g
      · simp [hk]
      · simp only [hk, if_false, ne_eq, not_false_eq_true, and_true]
        rfl
    rw [hr]
    rcases takeHostOpen_cases hopened with ⟨hh, htwo⟩ | ⟨k, hknone, hktwo, hk, hh⟩
    · rw [hh]
      refine ⟨fun j hj => absurd (hnone.symm.trans hj) nofun, fun _ => id, fun j hj => ?_, nofun, fun j hj => ?_,
        ⟨fun hhost => ⟨hhost, ?_⟩, And.left⟩, fun j => ?_⟩
      · cases hj.2
        exact hg
      · exact absurd (hj.1.symm.trans hj.2) nofun
      · have := htwo hhost
        rw [if_pos hnone]
        omega
      · rw [group_openGroup]
        have hiff : ((s.mm.reclaimOpen = none ∧ some g = some j) ∨ (s.mm.hostOpen = none ∧ s.mm.hostOpen = some j)) ↔ j = g := by
          constructor
          · rintro (hc | hc)
            · exact (Option.some.inj hc.2).symm
            · exact absurd (hc.1.symm.trans hc.2) nofun
          · rintro rfl
            exact .inl ⟨hnone, rfl⟩
        exact congrArg (fun x => { s.group j with state := x }) (if_congr hiff.symm rfl rfl)
    · rw [hh]
      refine ⟨fun j hj => absurd (hnone.symm.trans hj) nofun, fun j hj => absurd (hknone.symm.trans hj) nofun, fun j hj => ?_, nofun,
        fun j hj => ?_, ⟨nofun, fun hlt => ?_⟩, fun j => ?_⟩
      · cases hj.2
        exact hg
      · cases hj.2
        refine ⟨⟨((hfree k).1 hk.1).1, fun hc => ?_⟩, fun i hi => ?_⟩
        · exact ((hfree k).1 hk.1).2 (Option.some.inj hc.2).symm
        · have hik : i ≠ g := fun he => hi.2 ⟨hnone, by rw [he]; rfl⟩
          have hle := hk.2 i ((hfree i).2 ⟨hi.1, hik⟩)
          rw [group_openGroup, group_openGroup] at hle
          exact hle
      · have hlt := hlt.2
        rw [if_pos hnone] at hlt
        omega
      · rw [group_openGroup]
        have hiff : ((s.mm.reclaimOpen = none ∧ some g = some j) ∨ (s.mm.hostOpen = none ∧ some k = some j)) ↔ j = g ∨ j = k := by
          constructor
          · rintro (hc | hc)
            · exact .inl (Option.some.inj hc.2).symm
            · exact .inr (Option.some.inj hc.2).symm
          · rintro (rfl | rfl)
            · exact .inl ⟨hnone, rfl⟩
            · exact .inr ⟨hknone, rfl⟩
        have hinner := group_openGroup g j { s with mm := { s.mm with reclaimOpen := some g } }
        change { (openGroup g { s with mm := { s.mm with reclaimOpen := some g } }).group j with
          state := if j = k then .opened else ((openGroup g { s with mm := { s.mm with reclaimOpen := some g } }).group j).state } = _
        rw [hinner]
        have hstate : (if j = k then GroupState.opened else if j = g then .opened else (s.group j).state)
            = if (s.mm.reclaimOpen = none ∧ some g = some j) ∨ (s.mm.hostOpen = none ∧ some k = some j) then .opened
              else (s.group j).state := by
          rw [if_congr hiff rfl rfl]
          by_cases h1 : j = k <;> by_cases h2 : j = g <;> simp [h1, h2]
        exact congrArg (fun x => { s.group j with state := x }) hstate

end Sys2Proof.Machine
end

section
/-! What the evaluations at the end of a unit leave alone, and what they bring about (O5). -/

namespace Sys2Proof.Machine

variable {s t u : State} {n m : Fin 8} {a : Apply}

/-! ### Slots -/

/-- The settle condition of slot `n`, with the older slots as `t` leaves them. -/
def State.MetIn (s : State) (n : Fin 8) (t : State) : Prop :=
  ((s.slot n).desc.cmd ∈ [Cmd.clean, .flush] ∧ (s.slot n).triples = [])
    ∨ ((s.slot n).desc.cmd = .purge ∧ ∀ l, (s.line l).purgeMark ≠ some n)
    ∨ ((s.slot n).desc.cmd = .sync ∧ ∀ m ∈ s.csq.runQueue.takeWhile (· != n), (t.slot m).state = .done)

/-- From `s` to `t` slots change only as they settle. -/
structure Settling (s t : State) : Prop where
  slots : ∀ n, t.slot n = s.slot n ∨ ((s.slot n).state = .settling ∧ (t.slot n).desc = (s.slot n).desc
    ∧ (t.slot n).state = .done ∧ (t.slot n).status = .ok ∧ s.MetIn n t)
  lines : ∀ l, t.line l = s.line l
  queue : t.csq.runQueue = s.csq.runQueue
  apply : t.csq.apply = s.csq.apply ∨ (t.csq.apply = none ∧ ∃ a, s.csq.apply = some a ∧ (s.slot a.slot).state = .settling)
  records : s.csq.completions <+: t.csq.completions

namespace Settling

theorem refl (s : State) : Settling s s := ⟨fun _ => .inl rfl, fun _ => rfl, rfl, .inl rfl, List.prefix_rfl⟩

theorem metIn_mono (hdone : ∀ m, (t.slot m).state = .done → (u.slot m).state = .done) (h : s.MetIn n t) : s.MetIn n u :=
  h.imp id (Or.imp id fun hsync => ⟨hsync.1, fun m hm => hdone m (hsync.2 m hm)⟩)

theorem settleSlot (h : Settling s t) (n : Fin 8) : Settling s (settleSlot n t) := by
  rcases settleSlot_cases n t with ⟨he, -⟩ | ⟨hs, hmet, he⟩
  · rwa [he]
  · rw [he]
    have hsame : t.slot n = s.slot n := (h.slots n).resolve_right fun hd => by rw [hd.2.2.1] at hs; cases hs
    have hdone (m : Fin 8) (hm : (t.slot m).state = .done) :
        ((completeSlot n .ok (t.slot n).foliosDone t).slot m).state = .done := by
      rw [slot_completeSlot]
      split
      · rfl
      · exact hm
    have hmetIn : s.MetIn n t := by
      have hiff := (settleMet_iff t n).1 hmet
      rw [hsame, h.queue] at hiff
      simp only [h.lines] at hiff
      exact hiff
    refine ⟨fun m => ?_, fun l => ?_, ?_, ?_, ?_⟩
    · by_cases hm : m = n
      · subst hm
        refine .inr ⟨hsame ▸ hs, ?_, ?_, ?_, metIn_mono hdone hmetIn⟩
        · rw [desc_completeSlot, hsame]
        · rw [slot_completeSlot, if_pos rfl]
        · rw [slot_completeSlot, if_pos rfl]
      · rw [slot_completeSlot, if_neg hm]
        exact (h.slots m).imp id fun ⟨h1, h2, h3, h4, h5⟩ => ⟨h1, h2, h3, h4, metIn_mono hdone h5⟩
    · rw [← h.lines, completeSlot_frame]
      rfl
    · rw [← h.queue, completeSlot_frame]
    · have happly : (completeSlot n .ok (t.slot n).foliosDone t).csq.apply
          = if t.csq.apply.any (fun a => a.slot == n) then none else t.csq.apply := by
        rw [completeSlot_eq, countCompletion_frame]
        rfl
      rw [happly]
      split
      · next hany =>
        cases ha : t.csq.apply with
        | none => rw [ha] at hany; cases hany
        | some a =>
          rw [ha] at hany
          have hslot : a.slot = n := by simpa using hany
          have hsa : s.csq.apply = some a := by
            rcases h.apply with he | ⟨he, -⟩
            · rw [← he, ha]
            · rw [ha] at he; cases he
          exact .inr ⟨rfl, a, hsa, by rw [hslot, ← hsame]; exact hs⟩
      · exact h.apply
    · refine h.records.trans ?_
      rw [completeSlot_eq, countCompletion_frame]
      exact List.prefix_append _ _

theorem settlePass (h : Settling s t) (sel : State → Fin 8 → Bool) (n : Fin 8) : Settling s (settlePass sel t n) := by
  unfold Machine.settlePass
  split
  · exact h.settleSlot n
  · exact h

theorem foldl (sel : State → Fin 8 → Bool) (l : List (Fin 8)) (h : Settling s t) :
    Settling s (l.foldl (Machine.settlePass sel) t) := by
  induction l generalizing t with
  | nil => exact h
  | cons n l ih => exact ih (h.settlePass sel n)

theorem settleSlots (s : State) : Settling s (settleSlots s) := by
  rw [settleSlots_eq]
  exact ((refl s).foldl _ _).foldl _ _

end Settling

/-- From `s` to `t` slots change only as a queued WRITE receives its buffer. -/
structure Given (s t : State) : Prop where
  slots : ∀ n, t.slot n = s.slot n
    ∨ ((s.slot n).state = .queued ∧ (s.slot n).desc.cmd = .write ∧ t.slot n = { s.slot n with state := .loading })
  lines : ∀ l, t.line l = s.line l
  queue : t.csq.runQueue = s.csq.runQueue
  apply : t.csq.apply = s.csq.apply
  records : t.csq.completions = s.csq.completions

namespace Given

theorem assignOne (s : State) : Given s (assignOne s) := by
  by_cases h : ∃ b n, s.givesBuffer b n
  · obtain ⟨b, n, hb⟩ := h
    have hframe := assignOne_frame s
    have heq : (Machine.assignOne s).csq
        = (if (s.slot n).desc.cmd = .write then setSlot n { s.slot n with state := .loading } s else s).csq := by
      rw [assignOne_gives hb, setBuf_csq]
    refine ⟨fun m => ?_, fun l => by rw [hframe]; rfl, by rw [hframe], by rw [hframe], by rw [hframe]⟩
    have hslot : (Machine.assignOne s).slot m
        = (if (s.slot n).desc.cmd = .write then setSlot n { s.slot n with state := .loading } s else s).slot m :=
      congrArg (fun c : Csq => c.slots[m]) heq
    rw [hslot]
    split
    · next hw =>
      rw [slot_setSlot]
      split
      · next hm =>
        subst hm
        obtain ⟨-, -, -, -, -, older, rest, -, hwaits, -⟩ := hb
        exact .inr ⟨hwaits.2.1, hw, rfl⟩
      · exact .inl rfl
    · exact .inl rfl
  · have hnone : ∀ b n, ¬s.givesBuffer b n := fun b n hb => h ⟨b, n, hb⟩
    rw [assignOne_stays hnone]
    exact ⟨fun _ => .inl rfl, fun _ => rfl, rfl, rfl, rfl⟩

theorem trans (h : Given s t) (h' : Given t u) : Given s u := by
  refine ⟨fun n => ?_, fun l => (h'.lines l).trans (h.lines l), h'.queue.trans h.queue, h'.apply.trans h.apply, h'.records.trans h.records⟩
  rcases h.slots n with he | ⟨hq, hw, he⟩
  · rw [← he]
    exact h'.slots n
  · rcases h'.slots n with he' | ⟨hq', -⟩
    · exact .inr ⟨hq, hw, he'.trans he⟩
    · rw [he] at hq'
      cases hq'

theorem assignBuffers (hcsq : t.csq = s.csq) (hlines : ∀ l, t.line l = s.line l) : Given s (assignBuffers t) := by
  refine trans ⟨fun n => .inl ?_, hlines, by rw [hcsq], by rw [hcsq], by rw [hcsq]⟩ ((assignOne t).trans (assignOne _))
  exact congrArg (fun c : Csq => c.slots[n]) hcsq

end Given

/-! ### The apply, the draining indication and the media's state -/

theorem releaseRetry_apply (s : State) :
    (releaseRetry s).csq.apply = s.csq.apply.map fun a => { a with heldRetry := a.heldRetry && s.frozen } := by
  unfold releaseRetry
  cases ha : s.csq.apply with
  | none => exact ha
  | some a =>
    dsimp only
    cases hr : a.heldRetry <;> cases hf : s.frozen <;> simp [setApply, ha, hr]
    · rw [← hr]
    · rw [← hr]
    · rw [← hr]

theorem endUnit_mm (s : State) : (endUnit s).mm = (evalMedia s).mm := by
  rw [endUnit_eq, settleMediaPower_frame, evaluated_frame]
  rfl

theorem draining_iff (s : State) : (evalDraining s).fc.draining = true ↔ s.fc.high.toNat < s.dirtyCount
    ∨ (s.fc.draining = true ∧ s.fc.low.toNat < s.dirtyCount) := by
  unfold evalDraining
  simp

theorem noteLive_iff (h : s.StoresSound) (r : CommitNote) : s.noteLive r = true ↔ ∃ l x, s.cell l = some x
    ∧ x.complete = true ∧ x.metadata.kind = .tentative ∧ x.metadata.base = r.base ∧ s.mm.map.targets l = true := by
  unfold State.noteLive State.cell
  simp only [List.any_eq_true, Bool.and_eq_true, beq_iff_eq]
  constructor
  · rintro ⟨⟨l, x⟩, hmem, ⟨⟨hcomplete, hkind⟩, hbase⟩, htarget⟩
    exact ⟨l, x, (sparseGet_eq_some h.1).2 hmem, hcomplete, hkind, hbase, htarget⟩
  · rintro ⟨l, x, hcell, hcomplete, hkind, hbase, htarget⟩
    exact ⟨(l, x), (sparseGet_eq_some h.1).1 hcell, ⟨⟨hcomplete, hkind⟩, hbase⟩, htarget⟩

/-- The media's evaluations after the open groups are chosen: the notes and reclaim's activity (R122, R123). -/
theorem evalMedia_open (hm : s.mount = none) (hp : s.rst.portReset = false) (hi : s.rst.inReset = none) :
    evalMedia s = evalReclaim (pruneNotes (takeHostOpen (takeReclaimOpen s))) := by
  unfold evalMedia State.held
  rw [hm, hp, hi]
  rfl

theorem opened_frame (s : State) : takeHostOpen (takeReclaimOpen s) = { s with mm := { s.mm with
    groups := (takeHostOpen (takeReclaimOpen s)).mm.groups, hostOpen := (takeHostOpen (takeReclaimOpen s)).mm.hostOpen
    reclaimOpen := (takeHostOpen (takeReclaimOpen s)).mm.reclaimOpen } } := by
  rw [takeHostOpen_frame, takeReclaimOpen_frame]

/-! ### The statement -/

/-- Slots, queue, apply and records at the end of a unit: a buffer is received first, and then commands settle. -/
theorem endUnit_slots (s : State) : ∃ b, Given (releaseRetry s) b ∧ Settling b (endUnit s) := by
  obtain ⟨c, hc, hcsq, hfc, -⟩ := endUnit_settled s
  refine ⟨assignBuffers (evalDraining (evalMedia (releaseRetry s))), .assignBuffers ?_ fun l => ?_, ?_⟩
  · rw [evalMedia_frame]
    rfl
  · rw [evalMedia_frame]
    rfl
  · have hsettling := hc ▸ Settling.settleSlots (assignBuffers (evalDraining (evalMedia (releaseRetry s))))
    have hslot (n : Fin 8) : (endUnit s).slot n = c.slot n := congrArg (fun x : Csq => x.slots[n]) hcsq
    have hline (l : Fin 32) : (endUnit s).line l = c.line l := congrArg (fun x => x.lines[l]) hfc
    obtain ⟨slots, lines, queue, apply, records⟩ := hsettling
    refine ⟨fun n => ?_, fun l => (hline l).trans (lines l), by rw [hcsq, queue], by rw [hcsq]; exact apply, by rwa [hcsq]⟩
    rw [hslot]
    refine (slots n).imp_right fun ⟨hs, hdesc, hdone, hok, hmet⟩ => ⟨hs, hdesc, hdone, hok, ?_⟩
    exact Settling.metIn_mono (fun m hm => by rwa [hslot]) hmet

theorem releaseRetry_slot (s : State) (n : Fin 8) : (releaseRetry s).slot n = s.slot n := by rw [releaseRetry_frame]; rfl

/-- The slots at the end of a unit. -/
theorem endUnit_slot (s : State) (n : Fin 8) : ((endUnit s).slot n).desc = (s.slot n).desc
    ∧ ((endUnit s).slot n = s.slot n
      ∨ ((s.slot n).state = .queued ∧ (s.slot n).desc.cmd = .write ∧ (endUnit s).slot n = { s.slot n with state := .loading })
      ∨ ((s.slot n).state = .settling ∧ ((endUnit s).slot n).state = .done ∧ ((endUnit s).slot n).status = .ok
        ∧ s.MetIn n (endUnit s))) := by
  obtain ⟨b, hb, hset⟩ := endUnit_slots s
  have hgiven := hb.slots n
  rw [releaseRetry_slot] at hgiven
  rcases hgiven with he | ⟨hq, hw, he⟩
  · rcases hset.slots n with ht | ⟨hs, hdesc, hdone, hok, hmet⟩
    · rw [ht, he]
      exact ⟨rfl, .inl rfl⟩
    · have hqueue : b.csq.runQueue = s.csq.runQueue := by rw [hb.queue, releaseRetry_frame]
      have hline (l : Fin 32) : b.line l = s.line l := by rw [hb.lines, releaseRetry_frame]; rfl
      unfold State.MetIn at hmet
      simp only [hqueue, hline, he] at hmet
      rw [he] at hs hdesc
      exact ⟨hdesc, .inr (.inr ⟨hs, hdone, hok, hmet⟩)⟩
  · have hsame := (hset.slots n).resolve_right fun h => by rw [he] at h; cases h.1
    rw [hsame, he]
    exact ⟨rfl, .inr (.inl ⟨hq, hw, rfl⟩)⟩

/-- The apply at the end of a unit: its retry is let go outside a freeze; it ends only as its slot settles. -/
theorem endUnit_apply (s : State) : (endUnit s).csq.apply = (releaseRetry s).csq.apply
    ∨ ((endUnit s).csq.apply = none ∧ ∃ a, s.csq.apply = some a ∧ (s.slot a.slot).state = .settling) := by
  obtain ⟨b, hb, hset⟩ := endUnit_slots s
  rw [← hb.apply]
  refine hset.apply.imp_right fun ⟨hnone, a, ha, hs⟩ => ⟨hnone, ?_⟩
  rw [hb.apply, releaseRetry_apply] at ha
  obtain ⟨a', ha', rfl⟩ := Option.map_eq_some_iff.1 ha
  refine ⟨a', ha', ?_⟩
  rcases hb.slots a'.slot with he | ⟨-, -, he⟩
  · rwa [he, releaseRetry_slot] at hs
  · rw [he] at hs
    cases hs

/-- Settles O5. -/
theorem unitEndLeavesTheRest : Obligations.UnitEndLeavesTheRest := by
  unfold Obligations.UnitEndLeavesTheRest
  intro s
  have hframe : endUnit s = evalPower (settleMediaPower (evaluated s)) := rfl
  rw [settleMediaPower_frame, evaluated_frame] at hframe
  obtain ⟨b, hb, hset⟩ := endUnit_slots s
  have hstands : s.ntc.evPending &&& (endUnit s).ntc.evPending = s.ntc.evPending := by
    obtain ⟨x, hx, -⟩ := raised_evaluated s
    obtain ⟨y, hy, -⟩ := raised_settleMediaPower (evaluated s)
    refine Raised.stands (m := BitVec.allOnes 9) ⟨x ||| y, ?_, by simp⟩
    rw [← BitVec.or_assoc, ← hx]
    exact hy
  refine ⟨by rw [hframe]; rfl, by rw [hframe]; rfl, by rw [hframe]; rfl, by rw [hframe]; rfl, by rw [hframe]; rfl,
    by rw [hframe]; rfl, ?_, by rw [hframe]; rfl, hstands, by rw [hframe]; rfl, ?_, ?_, by rw [hframe]; rfl, by rw [hframe]; rfl,
    fun n => ⟨(endUnit_slot s n).1, (endUnit_slot s n).2, ?_, fun a ha hs => ?_, fun a ha hr => ?_, fun ha => ?_,
      fun hshut => ?_, fun hm hp hi hstores hbound => ?_⟩⟩
  · rw [endUnit_mm]
    exact congrArg State.mm (evalMedia_frame s)
  · rw [hset.queue, hb.queue, releaseRetry_frame]
  · have hrecords := hset.records
    rwa [hb.records, releaseRetry_frame] at hrecords
  · rw [hframe]
    exact draining_iff s
  · rcases endUnit_apply s with he | ⟨-, a', ha', hs'⟩
    · rw [he, releaseRetry_apply, ha]
      rfl
    · rw [ha] at ha'
      cases ha'
      exact absurd hs' hs
  · rcases endUnit_apply s with he | ⟨he, -⟩
    · rw [he, releaseRetry_apply] at ha
      obtain ⟨a', -, rfl⟩ := Option.map_eq_some_iff.1 ha
      exact (Bool.and_eq_true_iff.1 hr).2
    · rw [he] at ha
      cases ha
  · rcases endUnit_apply s with he | ⟨he, -⟩
    · rw [he, releaseRetry_apply, ha]
      rfl
    · exact he
  · rw [endUnit_mm]
    unfold evalMedia State.held
    rw [if_pos (by simpa [or_assoc] using hshut)]
  · have hroles := rolesFilled ⟨hstores.2.2.1, hbound⟩
    have hmm : (endUnit s).mm = (evalReclaim (pruneNotes (takeHostOpen (takeReclaimOpen s)))).mm := by
      rw [endUnit_mm, evalMedia_open hm hp hi]
    have hnotes : (endUnit s).mm.commitNotes = s.mm.commitNotes.filter s.noteLive := by
      rw [hmm]
      change (takeHostOpen (takeReclaimOpen s)).mm.commitNotes.filter (takeHostOpen (takeReclaimOpen s)).noteLive = _
      rw [opened_frame]
      rfl
    have hcount : (endUnit s).freeCount = (takeHostOpen (takeReclaimOpen s)).freeCount := by
      unfold State.freeCount
      rw [hmm]
      rfl
    have hfill : (endUnit s).mm.reclaimFill
        = (decide ((endUnit s).freeCount < 12) || (s.mm.reclaimFill && decide ((endUnit s).freeCount < 16))) := by
      rw [hcount, hmm]
      change (decide ((takeHostOpen (takeReclaimOpen s)).freeCount < 12) || ((takeHostOpen (takeReclaimOpen s)).mm.reclaimFill
        && decide ((takeHostOpen (takeReclaimOpen s)).freeCount < 16))) = _
      rw [congrArg (fun u => u.mm.reclaimFill) (opened_frame s)]
    have hreclaim : (endUnit s).mm.reclaimOpen = (takeHostOpen (takeReclaimOpen s)).mm.reclaimOpen := by rw [hmm]; rfl
    have hhost : (endUnit s).mm.hostOpen = (takeHostOpen (takeReclaimOpen s)).mm.hostOpen := by rw [hmm]; rfl
    have hgroup (g : Nat) : (endUnit s).group g = (takeHostOpen (takeReclaimOpen s)).group g := by
      unfold State.group
      rw [hmm]
      rfl
    dsimp only
    rw [hreclaim, hhost, hfill, hnotes]
    simp only [hgroup]
    exact ⟨hroles.reclaimStands, hroles.hostStands, hroles.reclaimFirst, hroles.reclaimEmpty, hroles.hostFirst, hroles.hostEmpty,
      hroles.groups, by simp, List.filter_sublist, fun r => by rw [List.mem_filter, noteLive_iff hstores]⟩

end Sys2Proof.Machine
end

section
/-! The starts of the commands and the commit point of a WRITE (O43, O44). -/

namespace Sys2Proof.Machine

variable {s t : State} {n : Fin 8} {k : StartKind}

/-! ### When a start is due -/

theorem unapplied_iff (s : State) (n : Fin 8) : s.unapplied n = true ↔ (s.slot n).state ∈ [SlotState.queued, .loading, .loaded] := by
  unfold State.unapplied
  simp [or_assoc]

theorem slotReady_iff (s : State) (n : Fin 8) : s.slotReady n = true ↔
    ((s.slot n).desc.cmd = .write → (s.slot n).state = .loaded)
      ∧ ((s.slot n).desc.cmd ∈ [Cmd.read, .describe, .health] → ∃ b, (s.buf b).holder = some n) := by
  have hbuf : (s.bufOf n).isSome = true ↔ ∃ b, (s.buf b).holder = some n := by
    rw [← not_iff_not, Bool.not_eq_true, Option.isSome_eq_false_iff, Option.isNone_iff_eq_none, bufOf_eq_none_iff]
    simp
  unfold State.slotReady
  rw [← hbuf]
  cases hcmd : (s.slot n).desc.cmd with
  | write => simp
  | read | describe | health => simp [Cmd.isData]
  | _ => simp [Cmd.isData]

theorem sequencerFree_iff (s : State) : s.sequencerFree = true ↔ s.csq.apply = none ∧ s.frozen = false ∧ s.mount = none
    ∧ (s.pwr.state = .active ∨ s.pwr.state = .idle) := by
  have hawake : s.awake = true ↔ s.pwr.state = .active ∨ s.pwr.state = .idle := by
    unfold State.awake
    cases s.pwr.state <;> decide
  unfold State.sequencerFree
  rw [← hawake]
  simp [and_assoc]

theorem due_start_iff (s : State) (n : Fin 8) : s.due = some (.start n) ↔ s.csq.apply = none ∧ s.startable = some n := by
  constructor
  · intro h
    have hnone := apply_none_of_due_start h
    refine ⟨hnone, ?_⟩
    unfold State.due at h
    rw [hnone] at h
    dsimp only at h
    split at h
    · next m hm =>
      cases h
      exact hm
    · split_ifs at h
      cases h
  · rintro ⟨hnone, h⟩
    unfold State.due
    rw [hnone, h]

theorem startable_iff (s : State) (n : Fin 8) : s.startable = some n ↔ s.sequencerFree = true
    ∧ (s.unapplied n = true ∧ ∃ older rest, s.csq.runQueue = older ++ n :: rest ∧ ∀ m ∈ older, (!s.unapplied m) = true)
    ∧ s.slotReady n = true := by
  unfold State.startable State.nextCommand
  rw [← List.find?_eq_some_iff_append]
  cases s.sequencerFree with
  | false => simp
  | true =>
    cases hfind : s.csq.runQueue.find? s.unapplied with
    | none => simp
    | some m =>
      simp only [if_true, true_and, Option.some.injEq]
      constructor
      · intro h
        split_ifs at h with hr
        cases h
        exact ⟨rfl, hr⟩
      · rintro ⟨rfl, hr⟩
        rw [if_pos hr]

/-! ### The rows of the starts -/

/-- The row of a start does what the start of its kind does. -/
theorem starts_row {bad : Bool} (h : s.Starts n k) (ht : startSlot n bad s = t) :
    (Host.Outcome.next (dueRow (startsKind k) bad s) : Host.Outcome State Fault Refusal) = .next (endUnit t) := by
  rw [dueRow_starts bad h, ht]

theorem modSlot_modSlot (f g : Slot → Slot) (n : Fin 8) (s : State) : modSlot n g (modSlot n f s) = modSlot n (fun x => g (f x)) s := by
  unfold modSlot
  rw [slot_setSlot_self]
  unfold setSlot
  simp only [Vector.set_set]

/-- Settles O43. -/
theorem commandsEnterApplying : Obligations.CommandsEnterApplying := by
  unfold Obligations.CommandsEnterApplying
  intro s n
  have hstart {k : StartKind} (h : s.Starts n k) : (s.slot n).desc.startKind s.fc.wt = k := h.2
  refine ⟨?_, fun d wt => ⟨fun hd => ?_, fun hd => ?_, ?_⟩, fun h => starts_row h ?_, fun h => starts_row h ?_, fun h => starts_row h ?_,
    fun h => starts_row h ?_, fun h => ⟨fun hr => starts_row h ?_, fun hr => starts_row h ?_⟩,
    fun h => ⟨fun hr => starts_row h ?_, fun hr => starts_row h ?_⟩⟩
  · rw [due_start_iff, startable_iff, sequencerFree_iff, slotReady_iff]
    simp only [Bool.not_eq_true', ← Bool.not_eq_true, unapplied_iff]
    constructor
    · rintro ⟨hnone, ⟨-, hfrozen, hmount, hawake⟩, ⟨hn, older, rest, hq, hall⟩, hw, hb⟩
      exact ⟨hnone, by simpa using hfrozen, hmount, hawake, ⟨older, rest, hq, hn, hall⟩, hw, hb⟩
    · rintro ⟨hnone, hfrozen, hmount, hawake, ⟨older, rest, hq, hn, hall⟩, hw, hb⟩
      exact ⟨hnone, ⟨hnone, by simpa using hfrozen, hmount, hawake⟩, ⟨hn, older, rest, hq, hall⟩, hw, hb⟩
  · unfold Desc.startKind
    rw [hd]
    cases d.atom <;> cases d.thru <;> cases wt <;> rfl
  · unfold Desc.startKind
    rw [hd]
  · unfold Desc.startKind
    simp only [List.forall_mem_cons]
    refine ⟨?_, ?_, ?_, ?_, ?_, ?_, ?_, ?_, ?_, ?_, ?_, nofun⟩
    all_goals
      intro hd
      rw [hd]
  · unfold startSlot
    rw [hstart h]
    rfl
  · unfold startSlot
    rw [hstart h]
    rfl
  · unfold startSlot
    rw [hstart h]
    change setApply _ (modSlot n _ (modSlot n _ s)) = _
    rw [modSlot_modSlot]
    rfl
  · unfold startSlot
    rw [hstart h]
    rfl
  · unfold startSlot
    rw [hstart h]
    exact if_pos hr
  · unfold startSlot
    rw [hstart h]
    exact if_neg (by simp [hr])
  · unfold startSlot
    rw [hstart h]
    exact if_pos hr
  · unfold startSlot
    rw [hstart h]
    exact if_neg (by simp [hr])

/-! ### The commit point of a WRITE -/

/-- The conditional check reads the entries (R105). -/
theorem condHolds_iff (s : State) (d : Desc) :
    s.condHolds d = true ↔ ∃ r ∈ s.rvt.entries, (r.token == d.token && decide (r.start ≤ d.folio ∧ d.folio + d.count ≤ r.start + r.length)) = true := by
  unfold State.condHolds
  rw [List.any_eq_true]
  rfl

/-- Settles O44. -/
theorem writeCommitPointChecks : Obligations.WriteCommitPointChecks := by
  unfold Obligations.WriteCommitPointChecks
  intro s n bad c k hck h
  have hrow : exec (c bad) s = .next (dueRow (startsKind k) bad s) ∧ startSlot n bad s = startWrite n k bad s := by
    have hk : (s.slot n).desc.startKind s.fc.wt = k := h.2
    unfold startSlot
    rw [hk]
    simp only [List.mem_cons, List.not_mem_nil, or_false, Prod.mk.injEq] at hck
    rcases hck with ⟨rfl, rfl⟩ | ⟨rfl, rfl⟩ | ⟨rfl, rfl⟩
    · exact ⟨rfl, rfl⟩
    · exact ⟨rfl, rfl⟩
    · exact ⟨rfl, rfl⟩
  rw [hrow.1]
  have hcommit (hb : bad = false) : startSlot n bad s = commitWrite n k s := by rw [hrow.2, hb]; rfl
  refine ⟨fun hb => starts_row h ?_, fun hb hr => starts_row h ?_, fun hb hr hc hall => starts_row h ?_,
    fun hb hr hc => starts_row h ?_⟩
  · have hslot : (raiseFault .f4 s).slot n = s.slot n := congrArg (fun x : Csq => x.slots[n]) (raiseFault_csq .f4 s)
    rw [hrow.2, hb, ← hslot]
    rfl
  · rw [hcommit hb]
    exact if_pos hr
  · rw [hcommit hb]
    unfold commitWrite
    rw [if_neg (by simp [hr])]
    refine if_pos ?_
    rw [hc, Bool.true_and, Bool.not_eq_true', ← Bool.not_eq_true, condHolds_iff]
    rintro ⟨r, hmem, hsat⟩
    exact Bool.false_ne_true ((hall r hmem).symm.trans hsat)
  · rw [hcommit hb]
    unfold commitWrite
    rw [if_neg (by simp [hr])]
    have hholds : ¬((s.slot n).desc.cond && !s.condHolds (s.slot n).desc) = true := by
      rw [Bool.and_eq_true, Bool.not_eq_true', ← Bool.not_eq_true, condHolds_iff]
      rcases hc with hc | hc
      · simp [hc]
      · exact fun hnot => hnot.2 hc
    refine (if_neg hholds).trans ?_
    unfold writeRsvActions
    cases hcond : (s.slot n).desc.cond with
    | true => rfl
    | false => rfl

end Sys2Proof.Machine
end

section
/-! Lines and marks, and the commit points of the commands that settle (O45). -/

namespace Sys2Proof.Machine

variable {s t u : State} {n m : Fin 8} {l k : Fin 32}

/-! ### Lines -/

theorem line_setLine (l k : Fin 32) (x : Line) (s : State) : (setLine l x s).line k = if k = l then x else s.line k := by
  split
  · next h => rw [h, line_setLine_self]
  · next h => exact line_setLine_ne x s h

theorem line_invalidate (l k : Fin 32) (s : State) : (invalidate l s).line k
    = if k = l then { s.line l with state := .invalid, purgeMark := none, data := [] } else s.line k := line_setLine l k _ s

theorem slot_invalidate (l : Fin 32) (n : Fin 8) (s : State) : (invalidate l s).slot n
    = { s.slot n with triples := (s.slot n).triples.filter fun t => !(t.line == l) } := slot_mapSlots _ n _

theorem slot_givePartial (mark : Option (Fin 8)) (n : Fin 8) (s : State) : (givePartial mark s).slot n
    = { s.slot n with flags := { (s.slot n).flags with
        purgePartial := (s.slot n).flags.purgePartial || decide (mark = some n) } } := by
  cases mark with
  | none => simp [givePartial]
  | some m =>
    rw [givePartial, slot_modSlot]
    by_cases h : n = m
    · simp [h]
    · rw [if_neg h]
      have hm : ¬m = n := fun he => h he.symm
      simp [hm]

/-! ### A PURGE at its commit point -/

/-- What a PURGE in slot `n` has done to the lines `done` of its range, from `s` to `u` (R74). -/
structure Purged (n : Fin 8) (s : State) (done : List (Fin 32)) (u : State) : Prop where
  line : ∀ k, u.line k =
    if k ∈ done ∧ (s.line k).state = .clean then { s.line k with state := .invalid, purgeMark := none, data := [] }
    else if k ∈ done ∧ (s.line k).state = .dirty then { s.line k with purgeMark := some n }
    else s.line k
  slot : ∀ m, u.slot m = { s.slot m with
    triples := (s.slot m).triples.filter fun r => !(done.filter fun k => (s.line k).state == .clean).contains r.line
    flags := { (s.slot m).flags with purgePartial := (s.slot m).flags.purgePartial
      || (done.any fun k => (s.line k).state == .dirty && (s.line k).purgeMark == some m) }
    detail := if m = n then (s.slot m).detail + BitVec.ofNat 32 (done.filter fun k => (s.line k).state == .clean).length
      else (s.slot m).detail }
  frame : ∃ slots lines, u = { s with
    csq := { s.csq with slots := slots }
    fc := { s.fc with
      lines := lines
      dirtyList := (done.filter fun k => (s.line k).state == .clean).foldl (fun list k => list.erase k) s.fc.dirtyList } }

namespace Purged

theorem nil (n : Fin 8) (s : State) : Purged n s [] s := ⟨fun k => by simp, fun m => by simp, _, _, rfl⟩

theorem examine (h : Purged n s done u) (hl : l ∉ done) : Purged n s (done ++ [l]) (purgeExamine n l u) := by
  have hline : u.line l = s.line l := by rw [h.line, if_neg fun hm => hl hm.1, if_neg fun hm => hl hm.1]
  unfold purgeExamine
  dsimp only
  rw [hline]
  cases hstate : (s.line l).state with
  | invalid | filling =>
    dsimp only
    refine ⟨fun k => ?_, fun m => ?_, ?_⟩
    · rw [h.line]
      by_cases hk : k = l
      · subst hk
        simp [hl, hstate]
      · simp [hk]
    · rw [h.slot]
      have hother : (LineState.invalid == .dirty) = false ∧ (LineState.filling == .dirty) = false := ⟨rfl, rfl⟩
      simp [hstate, hother]
    · simpa [hstate] using h.frame
  | clean =>
    dsimp only
    refine ⟨fun k => ?_, fun m => ?_, ?_⟩
    · change (invalidate l u).line k = _
      rw [line_invalidate, hline]
      by_cases hk : k = l
      · subst hk
        simp [hstate]
      · rw [if_neg hk, h.line]
        simp [hk]
    · rw [slot_modSlot, slot_invalidate, slot_invalidate, h.slot, h.slot]
      have hcontains (r : Triple) : ((done ++ [l]).filter fun k => (s.line k).state == .clean).contains r.line
          = ((done.filter fun k => (s.line k).state == .clean).contains r.line || r.line == l) := by
        rw [List.filter_append, List.contains_eq_mem, List.contains_eq_mem]
        have hdec : decide (r.line = l) = (r.line == l) := by rw [Bool.eq_iff_iff]; simp
        simp [hstate, hdec]
      have hany : ((done ++ [l]).any fun k => (s.line k).state == .dirty && (s.line k).purgeMark == some m)
          = done.any fun k => (s.line k).state == .dirty && (s.line k).purgeMark == some m := by
        have hother : (LineState.clean == .dirty) = false := rfl
        simp [hstate, hother]
      have hlength : ((done ++ [l]).filter fun k => (s.line k).state == .clean).length
          = (done.filter fun k => (s.line k).state == .clean).length + 1 := by simp [hstate]
      simp only [hcontains, hany, hlength, Bool.not_or]
      by_cases hm : m = n
      · subst hm
        simp only [if_true, List.filter_filter, Bool.and_comm, BitVec.ofNat_add, BitVec.add_assoc]
        rfl
      · simp only [if_neg hm, List.filter_filter, Bool.and_comm]
    · obtain ⟨slots, lines, hu⟩ := h.frame
      have hfilter : (done ++ [l]).filter (fun k => (s.line k).state == .clean)
          = (done.filter fun k => (s.line k).state == .clean) ++ [l] := by simp [hstate]
      rw [hfilter, List.foldl_concat]
      rw [hu]
      exact ⟨_, _, rfl⟩
  | dirty =>
    dsimp only
    refine ⟨fun k => ?_, fun m => ?_, ?_⟩
    · rw [line_setLine]
      by_cases hk : k = l
      · subst hk
        simp [hstate]
      · rw [if_neg hk, givePartial_frame]
        change u.line k = _
        rw [h.line]
        simp [hk]
    · change (givePartial (s.line l).purgeMark u).slot m = _
      rw [slot_givePartial, h.slot]
      have hmark : decide ((s.line l).purgeMark = some m) = ((s.line l).purgeMark == some m) := by rw [Bool.eq_iff_iff]; simp
      simp [hstate, Bool.or_assoc, hmark]
    · rw [givePartial_frame]
      obtain ⟨slots, lines, hu⟩ := h.frame
      have hfilter : (done ++ [l]).filter (fun k => (s.line k).state == .clean)
          = done.filter fun k => (s.line k).state == .clean := by simp [hstate]
      rw [hfilter]
      generalize (givePartial (s.line l).purgeMark u).csq.slots = x
      rw [hu]
      exact ⟨x, _, rfl⟩

theorem foldl (l : List (Fin 32)) (hl : l.Nodup) (done : List (Fin 32)) (hdone : ∀ k ∈ l, k ∉ done) (h : Purged n s done u) :
    Purged n s (done ++ l) (l.foldl (fun v k => purgeExamine n k v) u) := by
  induction l generalizing done u with
  | nil => simpa using h
  | cons k l ih =>
    obtain ⟨hk, hl⟩ := List.nodup_cons.1 hl
    rw [List.append_cons]
    refine ih hl _ (fun j hj => ?_) (h.examine (hdone k List.mem_cons_self))
    simp only [List.mem_append, List.mem_singleton, not_or]
    exact ⟨hdone j (List.mem_cons_of_mem _ hj), fun he => hk (he ▸ hj)⟩

end Purged

/-! ### The commit points -/

/-- A settling command is recorded and then SETTLING. -/
theorem endSettling_modSlot (n : Fin 8) (f : Slot → Slot) (s : State) :
    endSettling n (modSlot n f s) = settleSlots (setSlot n { f (s.slot n) with state := .settling } s) := by
  unfold endSettling
  rw [modSlot_modSlot]
  rfl

/-- The DIRTY lines of a range. -/
theorem dirty_linesIn (s : State) (start count : Nat) : ((s.linesIn start count).filter fun l => (s.line l).state == .dirty)
    = (List.finRange 32).filter fun l =>
        (s.line l).state == .dirty && decide (start ≤ (s.line l).folio ∧ (s.line l).folio < start + count) := by
  unfold State.linesIn
  rw [List.filter_filter]
  refine List.filter_congr fun l _ => ?_
  cases (s.line l).state with
  | dirty => simp
  | _ => rfl

theorem nodup_linesIn (s : State) (start count : Nat) : (s.linesIn start count).Nodup := (List.nodup_finRange 32).filter _

/-- Settles O45. -/
theorem settlingCommandsRecord : Obligations.SettlingCommandsRecord := by
  unfold Obligations.SettlingCommandsRecord
  intro s n
  have hstart {k : StartKind} (h : s.Starts n k) : (s.slot n).desc.startKind s.fc.wt = k := h.2
  refine ⟨fun h => starts_row h ?_, fun h => starts_row h ?_, fun h => starts_row h ?_, fun h => ?_⟩
  · unfold startSlot
    rw [hstart h]
    unfold commitClean
    dsimp only
    rw [endSettling_modSlot, dirty_linesIn]
    rfl
  · unfold startSlot
    rw [hstart h]
    exact endSettling_modSlot _ _ _
  · unfold startSlot
    rw [hstart h]
    exact endSettling_modSlot _ _ _
  · have hpurged : Purged n s (s.linesIn (s.slot n).desc.folio (s.slot n).desc.count)
        ((s.linesIn (s.slot n).desc.folio (s.slot n).desc.count).foldl (fun v k => purgeExamine n k v) s) :=
      (Purged.nil n s).foldl _ (nodup_linesIn s _ _) [] fun _ _ => List.not_mem_nil
    obtain ⟨v, hv⟩ : ∃ v, v = (s.linesIn (s.slot n).desc.folio (s.slot n).desc.count).foldl (fun v k => purgeExamine n k v) s :=
      ⟨_, rfl⟩
    rw [← hv] at hpurged
    refine ⟨setSlot n { v.slot n with
      foliosDone := (s.linesIn (s.slot n).desc.folio (s.slot n).desc.count).length, state := .settling } v,
      starts_row h ?_, fun l => ?_, fun m => ?_, ?_⟩
    · unfold startSlot
      rw [hstart h]
      unfold commitPurge
      dsimp only
      rw [← hv]
      exact endSettling_modSlot n _ v
    · change v.line l = _
      rw [hpurged.line]
      have hmem (st : LineState) (hst : st ≠ .invalid) :
          (l ∈ s.linesIn (s.slot n).desc.folio (s.slot n).desc.count ∧ (s.line l).state = st)
            ↔ ((s.line l).state = st
              ∧ decide ((s.slot n).desc.folio ≤ (s.line l).folio
                ∧ (s.line l).folio < (s.slot n).desc.folio + (s.slot n).desc.count) = true) := by
        unfold State.linesIn
        rw [List.mem_filter, Bool.and_eq_true, bne_iff_ne]
        constructor
        · exact fun h => ⟨h.2, h.1.2.2⟩
        · exact fun h => ⟨⟨List.mem_finRange l, h.1 ▸ hst, h.2⟩, h.1⟩
      rw [if_congr (hmem .clean (by decide)) rfl rfl, if_congr (hmem .dirty (by decide)) rfl rfl]
    · rw [slot_setSlot, hpurged.slot, hpurged.slot]
      split
      · next hm =>
        subst hm
        simp only [if_true]
        rfl
      · rfl
    · obtain ⟨slots, lines, hframe⟩ := hpurged.frame
      rw [hframe]
      rfl

end Sys2Proof.Machine
end

section
/-! The records of DESCRIBE and HEALTH, and the counts of groups that they show (O46). -/

namespace Sys2Proof.Machine

variable {s t u : State} {n : Fin 8}

/-! ### Placing a record -/

/-- A record of at least one word is placed, and the slot enters UNLOADING. -/
theorem commitRecord_eq {b : BufId} (hb : s.bufOf n = some b) (hnone : s.csq.apply = none) (hcmd : (s.slot n).desc.cmd ≠ .read)
    (detail : Word) {words : FolioData} (hwords : words ≠ []) :
    commitRecord n detail words s = setSlot n { s.slot n with state := .unloading, detail := detail }
      (setBuf b { s.buf b with words := (s.buf b).words ++ words } s) := by
  obtain ⟨u, hu⟩ : ∃ u, u = setBuf b { s.buf b with words := (s.buf b).words ++ words }
      (modSlot n (fun sl => { sl with detail := detail }) s) := ⟨_, rfl⟩
  have hcsq : u.csq = (modSlot n (fun sl => { sl with detail := detail }) s).csq := by rw [hu, setBuf_csq]
  have hplaced : placeFolio n words (modSlot n (fun sl => { sl with detail := detail }) s) = u := by
    have hbuf : (modSlot n (fun sl => { sl with detail := detail }) s).bufOf n = some b := hb
    unfold placeFolio
    rw [hbuf, hu]
    rfl
  have hslot : u.slot n = { s.slot n with detail := detail } := by
    have hsame : u.slot n = (modSlot n (fun sl => { sl with detail := detail }) s).slot n :=
      congrArg (fun c : Csq => c.slots[n]) hcsq
    rw [hsame, slot_modSlot, if_pos rfl]
  have hwordsOf : u.wordsOf n = (s.buf b).words ++ words := by
    have hbufu : u.bufOf n = some b := by
      rw [hu]
      exact (bufOf_setBuf (x := { s.buf b with words := (s.buf b).words ++ words }) (s := modSlot n (fun sl => { sl with detail := detail }) s) b rfl).trans hb
    rw [wordsOf_eq hbufu, hu, buf_setBuf, if_pos rfl]
  unfold commitRecord
  rw [hplaced]
  unfold endPlacing
  dsimp only
  rw [if_neg (by rw [hwordsOf]; simp [hwords]), if_neg (by simp [hslot, hcmd])]
  have hset (x y : Slot) (v : State) : setSlot n x (setSlot n y v) = setSlot n x v := by
    unfold setSlot
    simp only [Vector.set_set]
  have hstands : setApply none s = s := by
    unfold setApply
    rw [← hnone]
  change setSlot n { u.slot n with state := .unloading } (setApply none u) = _
  rw [hslot, hu]
  have hcomm (x y : Slot) (z : Buffer) :
      setSlot n x (setApply none (setBuf b z (setSlot n y s))) = setSlot n x (setSlot n y (setBuf b z (setApply none s))) := by
    cases b <;> rfl
  unfold modSlot
  rw [hcomm, hset, hstands]

/-! ### The counts -/

theorem reserve_eq (h : GroupTable s) : s.reserve = 256 - (s.number .retired + s.number .retiring) := by
  have hsize : Config.numGroups = 4096 ∧ Config.groupsNeeded = 3840 := ⟨rfl, rfl⟩
  unfold State.reserve
  rw [h.length_groupsIn (by decide), h.length_groupsIn (by decide)]
  omega

/-- The groups of the part that are not RETIRED. -/
def State.good (s : State) : List Nat := (List.range 4096).filter fun g => (s.group g).state != .retired

/-- Up to their order, the erase counts of the groups that are not RETIRED are the listed ones, and a 0 for every group that is
not listed. -/
theorem perm_goodErases (h : GroupTable s) :
    (s.good.map fun g => (s.group g).erases).Perm (s.goodErases.1 ++ List.replicate s.goodErases.2 0) := by
  obtain ⟨keys, hkeys⟩ : ∃ keys, keys = s.mm.groups.map Prod.fst := ⟨_, rfl⟩
  have hnodup : keys.Nodup := by
    rw [hkeys]
    exact List.pairwise_map.2 (((sparseWf_iff _).1 h.wf).imp fun hlt => Nat.ne_of_lt hlt)
  have hlisted : ((List.range 4096).filter (keys.contains ·)).Perm keys := by
    refine (List.perm_ext_iff_of_nodup (List.nodup_range.filter _) hnodup).2 fun g => ?_
    rw [List.mem_filter, List.mem_range, List.contains_iff_mem]
    refine ⟨And.right, fun hg => ⟨?_, hg⟩⟩
    rw [hkeys] at hg
    obtain ⟨p, hp, rfl⟩ := List.mem_map.1 hg
    exact h.bound p hp
  have hsplit : (List.range 4096).Perm (keys ++ (List.range 4096).filter fun g => !keys.contains g) :=
    (List.filter_append_perm (keys.contains ·) _).symm.trans (hlisted.append_right _)
  have hothers : ∀ g ∈ (List.range 4096).filter fun g => !keys.contains g, s.group g = Group.fresh := fun g hg => by
    obtain ⟨-, hg⟩ := List.mem_filter.1 hg
    unfold State.group
    rw [(sparseGet_eq_none_iff g _).2 fun p hp he => ?_]
    · rfl
    · rw [hkeys] at hg
      simp only [Bool.not_eq_true', ← Bool.not_eq_true, List.contains_iff_mem] at hg
      exact hg (List.mem_map.2 ⟨p, hp, he⟩)
  have hcount : ((List.range 4096).filter fun g => !keys.contains g).length = 4096 - s.mm.groups.length := by
    have hlength := hsplit.length_eq
    rw [List.length_append, List.length_range, hkeys, List.length_map, ← hkeys] at hlength
    omega
  unfold State.good
  refine ((hsplit.filter _).map _).trans (.of_eq ?_)
  rw [List.filter_append, List.map_append]
  unfold State.goodErases
  refine congrArg₂ (· ++ ·) ?_ ?_
  · rw [hkeys, List.filter_map, List.map_map]
    have hgroup : ∀ p ∈ s.mm.groups, s.group p.1 = p.2 := fun p hp => by
      unfold State.group
      rw [(h.mem_groups_iff p.1 p.2).1 hp]
      rfl
    rw [List.filter_congr (q := fun p => p.2.state != .retired) fun p hp => by rw [Function.comp_apply, hgroup p hp]]
    exact List.map_congr_left fun p hp => by rw [Function.comp_apply, hgroup p (List.mem_of_mem_filter hp)]
  · rw [List.filter_eq_self.2 fun g hg => by rw [hothers g hg]; rfl]
    rw [List.map_congr_left fun g hg => by rw [hothers g hg]]
    have hsize : Config.numGroups = 4096 := rfl
    have hzero : Group.fresh.erases = 0 := rfl
    rw [List.map_const', hcount, hsize, hzero]

/-- The least of the listed numbers and of `k` zeros. -/
theorem min_append_zeros {l m : List Nat} {k : Nat} (hperm : m.Perm (l ++ List.replicate k 0)) (hm : m ≠ []) :
    m.min?.getD 0 = if 0 < k then 0 else l.foldl min (l.headD 0) := by
  have hmem (b : Nat) : b ∈ m ↔ b ∈ l ∨ (k ≠ 0 ∧ b = 0) := by rw [hperm.mem_iff, List.mem_append, List.mem_replicate]
  have hleast : m.min? = some (if 0 < k then 0 else l.foldl min (l.headD 0)) := by
    rw [List.min?_eq_some_iff]
    split
    · next hk => exact ⟨(hmem 0).2 (.inr ⟨Nat.pos_iff_ne_zero.1 hk, rfl⟩), fun b _ => Nat.zero_le b⟩
    · next hk =>
      have hzero : k = 0 := by omega
      have hmem (b : Nat) : b ∈ m ↔ b ∈ l := by rw [hmem]; simp [hzero]
      cases l with
      | nil => exact absurd (List.eq_nil_iff_forall_not_mem.2 fun b hb => List.not_mem_nil ((hmem b).1 hb)) hm
      | cons a l =>
        have hfold : (a :: l).foldl min ((a :: l).headD 0) = l.foldl min a := congrArg (l.foldl min) (Nat.min_self a)
        obtain ⟨hin, hle⟩ := List.min?_eq_some_iff.1 (List.min?_cons' (x := a) (xs := l))
        rw [hfold]
        exact ⟨(hmem _).2 hin, fun b hb => hle b ((hmem b).1 hb)⟩
  rw [hleast]
  rfl

/-- The greatest of the listed numbers and of `k` zeros. -/
theorem max_append_zeros {l m : List Nat} {k : Nat} (hperm : m.Perm (l ++ List.replicate k 0)) (hm : m ≠ []) :
    m.max?.getD 0 = l.foldl max 0 := by
  have hmem (b : Nat) : b ∈ m ↔ b ∈ l ∨ (k ≠ 0 ∧ b = 0) := by rw [hperm.mem_iff, List.mem_append, List.mem_replicate]
  obtain ⟨hin, hge⟩ := List.max?_eq_some_iff.1 (List.max?_cons' (x := 0) (xs := l))
  have hall : ∀ b ∈ m, b ≤ l.foldl max 0 := fun b hb => by
    rcases (hmem b).1 hb with hb | ⟨-, rfl⟩
    · exact hge b (List.mem_cons_of_mem _ hb)
    · exact Nat.zero_le _
  have hgreatest : m.max? = some (l.foldl max 0) := by
    rw [List.max?_eq_some_iff]
    refine ⟨?_, hall⟩
    rcases List.mem_cons.1 hin with hzero | hin
    · obtain ⟨b, hb⟩ := List.exists_mem_of_ne_nil m hm
      have hb0 : b = 0 := Nat.le_zero.1 (hzero ▸ hall b hb)
      rw [hzero, ← hb0]
      exact hb
    · exact (hmem _).2 (.inl hin)
  rw [hgreatest]
  rfl

theorem eraseWords_eq (h : GroupTable s) (hgood : s.good ≠ []) :
    let erases := s.good.map fun g => (s.group g).erases
    s.eraseWords = [BitVec.ofNat 32 (erases.min?.getD 0), BitVec.ofNat 32 (erases.max?.getD 0)
      , BitVec.ofNat 32 (erases.sum / s.good.length)] := by
  dsimp only
  have hperm := perm_goodErases h
  obtain ⟨erases, he⟩ : ∃ erases, erases = s.good.map fun g => (s.group g).erases := ⟨_, rfl⟩
  have hlength : s.good.length = s.goodErases.1.length + s.goodErases.2 := by
    have := hperm.length_eq
    rwa [List.length_map, List.length_append, List.length_replicate] at this
  have hpos : s.good.length ≠ 0 := mt List.length_eq_zero_iff.1 hgood
  have hsum : erases.sum = s.goodErases.1.sum := by
    rw [he, hperm.sum_eq, List.sum_append]
    simp
  rw [← he] at hperm ⊢
  have hne : erases ≠ [] := by
    rw [he]
    simpa using hgood
  unfold State.eraseWords
  dsimp only
  rw [if_neg (by rw [← hlength]; exact hpos), min_append_zeros hperm hne, max_append_zeros hperm hne, hsum, hlength]

/-! ### The words of the records -/

theorem length_eraseWords (s : State) : s.eraseWords.length = 3 := by
  unfold State.eraseWords
  dsimp only
  split <;> rfl

theorem length_recordWords {l : List Word} (h : l.length ≤ 256) : (recordWords l).length = 256 := by
  have hsize : Config.folioWords = 256 := rfl
  unfold recordWords
  rw [List.length_append, List.length_replicate, hsize]
  omega

theorem recordWords_ne_nil (l : List Word) : recordWords l ≠ [] := by
  intro h
  obtain ⟨rfl, hrest⟩ := List.append_eq_nil_iff.1 h
  cases hrest

theorem Defect.word_eq (d : Defect) : d.word = BitVec.ofNat 32 (2 ^ 31 + 65536 * d.origin.code + d.group) := by
  have hsum : 1 * 2 ^ 31 + (d.origin.code * 2 ^ 16 + (d.group * 2 ^ 0 + 0)) = 2 ^ 31 + 65536 * d.origin.code + d.group := by omega
  exact congrArg (BitVec.ofNat 32) hsum

/-- The start of a command that places a record. -/
theorem starts_record {k : StartKind} {b : BufId} {detail : Word} {words : FolioData} (h : s.Starts n k) (hb : s.bufOf n = some b)
    (hk : k = .describe ∨ k = .healthCounters ∨ k = .healthDefectList) (hwords : words ≠ [])
    (hstart : startSlot n false s = commitRecord n detail words s) :
    (Host.Outcome.next (dueRow (startsKind k) false s) : Host.Outcome State Fault Refusal)
      = .next (endUnit (setSlot n { s.slot n with state := .unloading, detail := detail }
        (setBuf b { s.buf b with words := (s.buf b).words ++ words } s))) := by
  refine starts_row h (hstart.trans (commitRecord_eq hb (apply_none_of_due_start h.1) (fun hcmd => ?_) detail hwords))
  have hread : (s.slot n).desc.startKind s.fc.wt = .read := by
    unfold Desc.startKind
    rw [hcmd]
  have hkread : k = .read := h.2.symm.trans hread
  rcases hk with hk | hk | hk
  · rw [hk] at hkread; cases hkread
  · rw [hk] at hkread; cases hkread
  · rw [hk] at hkread; cases hkread

/-- Settles O46. -/
theorem recordsArePlaced : Obligations.RecordsArePlaced := by
  unfold Obligations.RecordsArePlaced
  refine ⟨fun s n b hb => ⟨fun h => ?_, fun h => ?_, fun h => ?_⟩, rfl, fun s => ?_⟩
  · refine starts_record h hb (.inl rfl) (recordWords_ne_nil _) ?_
    unfold startSlot
    rw [show (s.slot n).desc.startKind s.fc.wt = .describe from h.2]
  · refine starts_record h hb (.inr (.inl rfl)) (recordWords_ne_nil _) ?_
    unfold startSlot
    rw [show (s.slot n).desc.startKind s.fc.wt = .healthCounters from h.2]
  · refine starts_record h hb (.inr (.inr rfl)) ?_ ?_
    · exact recordWords_ne_nil _
    · unfold startSlot
      rw [show (s.slot n).desc.startKind s.fc.wt = .healthDefectList from h.2]
  · have hwords := length_eraseWords s
    obtain ⟨w1, w2, w3, hw⟩ : ∃ w1 w2 w3, s.eraseWords = [w1, w2, w3] := by
      match s.eraseWords, hwords with
      | [w1, w2, w3], _ => exact ⟨w1, w2, w3, rfl⟩
    have hbit : BitVec.ofNat 32 (bit s.mm.readOnly) = if s.mm.readOnly = true then 1 else 0 := by
      cases s.mm.readOnly <;> rfl
    refine ⟨?_, ?_, ?_, ?_, fun hs hb hgood => ?_, fun hs hb => ?_⟩
    · exact length_recordWords (by rw [hw]; simp)
    · rfl
    · unfold State.healthRecord
      rw [hw, hbit]
      rfl
    · unfold State.defectRecord recordWords
      have hsize : Config.folioWords = 256 := rfl
      rw [List.length_map, hsize]
      exact congrArg (· ++ _) (List.map_congr_left fun d _ => d.word_eq)
    · have htable : GroupTable s := ⟨hs.2.2.1, hb⟩
      unfold State.healthRecord
      rw [eraseWords_eq htable hgood]
      rfl
    · have htable : GroupTable s := ⟨hs.2.2.1, hb⟩
      exact ⟨htable.freeCount_eq, reserve_eq htable, htable.length_groupsIn (by decide), htable.mem_groupsIn (by decide)⟩

end Sys2Proof.Machine
end

section
/-! The steps of an apply: their beginnings, and READ and PREFETCH (O47, O48, O49). -/

namespace Sys2Proof.Machine

variable {s t u : State} {n : Fin 8} {a : Apply} {l : Fin 32} {f : Nat}

/-! ### When a step begins -/

theorem foreground_iff (s : State) : s.foreground = true ↔ s.freeCount < 3 := by
  have hcount : Config.reclaimForeground = 3 := rfl
  unfold State.foreground State.reclaimPriority
  rw [hcount]
  split
  · next h => exact iff_of_true rfl h
  · next h =>
    refine iff_of_false ?_ h
    split
    · decide
    · decide

theorem needsSpace_iff (a : Apply) : a.needsSpace = true ↔
    a.kind ∈ [.writeCached, .writeThrough, .writeAtomic] ∨ (a.kind ∈ [.trim, .eraseAll] ∧ a.step = 1) := by
  unfold Apply.needsSpace
  cases a.kind with
  | trim | eraseAll => simp
  | _ => simp

/-- The step of the apply in progress. -/
theorem exec_applyStep (hrest : s.AtRest) (ha : s.csq.apply = some a) (bad : Bool) : exec (.applyStep bad) s
    = .next (endUnit (if a.wait = .between ∧ s.frozen = false then beginStep a bad s else s)) := by
  change Host.Outcome.next (endUnit (applyStepOp bad (caughtUp s))) = _
  rw [caughtUp_atRest hrest]
  unfold applyStepOp
  rw [ha]
  simp

theorem beginStep_eq (a : Apply) (bad : Bool) (s : State) : beginStep a bad s =
    if s.freeCount < 3 ∧ a.needsSpace = true then setApply (some { a with wait := .forReclaim }) s else stepWork a bad s := by
  unfold beginStep
  refine if_congr ?_ rfl rfl
  rw [Bool.and_eq_true, foreground_iff, and_comm]

/-- The row of the end of a wait. -/
theorem endWait_row {d : Due} (h : s.due = some d) (hd : d = .lineWaitEnd ∨ d = .foregroundEnd) (ha : s.csq.apply = some a) :
    (Host.Outcome.next (dueRow (isDue d) false s) : Host.Outcome State Fault Refusal) = .next (endUnit (stepWork a false s)) := by
  rw [dueRow_selected (d := d) false h (by simp [isDue])]
  have hwait : endWait s = stepWork a false s := by
    unfold endWait
    rw [ha]
  rcases hd with rfl | rfl
  · exact congrArg (fun u => Host.Outcome.next (endUnit u)) hwait
  · exact congrArg (fun u => Host.Outcome.next (endUnit u)) hwait

/-- Settles O47. -/
theorem stepsBeginAndResume : Obligations.StepsBeginAndResume := by
  unfold Obligations.StepsBeginAndResume
  refine ⟨fun s a bad hrest ha => ⟨fun hw hf hspace => ?_, fun hw hf hcount hspace => ?_, fun hno => ?_⟩,
    fun s a ha => ⟨fun hk hw hline => ?_, fun hspace hw hcount => ?_⟩, fun s bad hrest ha => ?_⟩
  · rw [exec_applyStep hrest ha, if_pos ⟨hw, hf⟩, beginStep_eq, if_neg]
    rintro ⟨hlt, hneeds⟩
    rw [needsSpace_iff] at hneeds
    rcases hspace with h | h
    · omega
    · exact h hneeds
  · rw [exec_applyStep hrest ha, if_pos ⟨hw, hf⟩, beginStep_eq, if_pos ⟨hcount, (needsSpace_iff a).2 hspace⟩]
  · rw [exec_applyStep hrest ha, if_neg]
    rintro ⟨hw, hf⟩
    rcases hno with h | h
    · exact h hw
    · rw [hf] at h
      cases h
  · refine endWait_row (d := .lineWaitEnd) ?_ (.inl rfl) ha
    unfold State.due
    simp [ha, hw, hk, hline]
  · refine endWait_row (d := .foregroundEnd) ?_ (.inr rfl) ha
    have hneeds := (needsSpace_iff a).2 hspace
    have hfore : s.foreground = false := by
      rw [← Bool.not_eq_true, foreground_iff]
      omega
    unfold State.due
    simp [ha, hw, hneeds, hfore]
  · change Host.Outcome.next (endUnit (applyStepOp bad (caughtUp s))) = _
    rw [caughtUp_atRest hrest]
    unfold applyStepOp
    rw [ha]

/-! ### Lines found and allocated -/

/-- The line that `findLine` gives: the lowest one that holds the folio. -/
def State.Holds (s : State) (f : Nat) (l : Fin 32) : Prop := (s.line l).state ≠ .invalid ∧ (s.line l).folio = f

theorem findLine_eq_some_iff (s : State) (f : Nat) (l : Fin 32) :
    s.findLine f = some l ↔ s.Holds f l ∧ ∀ m < l, ¬s.Holds f m := by
  unfold State.findLine State.Holds
  rw [← Fin.find?_eq_find?_finRange, Fin.find?_eq_some_iff]
  simp

theorem findLine_eq_none_iff (s : State) (f : Nat) : s.findLine f = none ↔ ∀ l, ¬s.Holds f l := by
  unfold State.findLine State.Holds
  rw [← Fin.find?_eq_find?_finRange, Fin.find?_eq_none_iff]
  simp

theorem allocLine_of_invalid (h : (s.line l).state = .invalid) (hlow : ∀ m < l, (s.line m).state ≠ .invalid) :
    s.allocLine = some l := by
  have hfind : ((List.finRange 32).find? fun m => (s.line m).state == .invalid) = some l := by
    rw [← Fin.find?_eq_find?_finRange, Fin.find?_eq_some_iff]
    exact ⟨by simp [h], fun m hm => by simpa using hlow m hm⟩
  unfold State.allocLine
  rw [hfind]

theorem allocLine_of_valid (h : ∀ l, (s.line l).state ≠ .invalid) :
    s.allocLine = s.fc.lru.find? fun l => (s.line l).state == .clean := by
  have hfind : ((List.finRange 32).find? fun m => (s.line m).state == .invalid) = none := by
    rw [← Fin.find?_eq_find?_finRange, Fin.find?_eq_none_iff]
    simpa using h
  unfold State.allocLine
  rw [hfind]

/-! ### The end of a READ -/

theorem createRsv_setSlot (r : Rsv) (n : Fin 8) (x : Slot) (s : State) :
    createRsv r (setSlot n x s) = setSlot n x (createRsv r s) := by
  by_cases hknown : ∃ e ∈ s.rvt.entries, e.token = r.token
  · rw [createRsv_known hknown, createRsv_known (s := setSlot n x s) hknown]
    rfl
  · have hnew : ∀ e ∈ s.rvt.entries, e.token ≠ r.token := fun e he h => hknown ⟨e, he, h⟩
    by_cases hroom : s.rvt.entries.length < 4
    · rw [createRsv_room hnew hroom, createRsv_room (s := setSlot n x s) hnew hroom]
      rfl
    · cases hlist : s.rvt.entries with
      | nil => rw [hlist] at hroom; exact absurd (by decide) hroom
      | cons oldest rest =>
        rw [createRsv_evicts hnew hlist (not_lt.1 hroom), createRsv_evicts (s := setSlot n x s) hnew hlist (not_lt.1 hroom)]
        rfl

theorem endPlacing_empty (h : s.wordsOf n = []) : endPlacing n s = completeSlot n (s.slot n).status 0 (settleSlots s) := by
  unfold endPlacing
  dsimp only
  rw [h]
  rfl

theorem endPlacing_placed (h : s.wordsOf n ≠ []) (hr : (s.slot n).desc.cmd ≠ .read ∨ (s.slot n).desc.rsv = false) :
    endPlacing n s = setSlot n { s.slot n with state := .unloading } (setApply none s) := by
  unfold endPlacing
  dsimp only
  rw [if_neg (by simpa using h), if_neg]
  · rfl
  · rcases hr with hr | hr
    · simp [hr]
    · simp [hr]

theorem endPlacing_reserves (h : s.wordsOf n ≠ []) (hc : (s.slot n).desc.cmd = .read) (hr : (s.slot n).desc.rsv = true) :
    endPlacing n s = setSlot n { s.slot n with state := .unloading, flags := { (s.slot n).flags with rsvMade := true } }
      (createRsv { token := (s.slot n).desc.token, start := (s.slot n).desc.folio, length := (s.slot n).desc.count }
        (setApply none s)) := by
  unfold endPlacing
  dsimp only
  rw [if_neg (by simpa using h), if_pos (by simp [hc, hr])]
  unfold modSlot
  rw [createRsv_setSlot, slot_setSlot_self]
  unfold setSlot
  simp only [Vector.set_set]
  rfl

/-! ### READ -/

/-- A READ step that has placed its folio goes on, by its command's count. -/
theorem advanceRead_eq {k : Nat} (hcount : (s.slot a.slot).desc.count = k) : advanceRead a s =
    if a.step + 1 < k then setApply (some { a with step := a.step + 1, wait := .between }) s else endPlacing a.slot s := by
  unfold advanceRead State.applyCount
  rw [hcount]
  rfl

theorem stepWork_read (hk : a.kind = .read) (bad : Bool) (s : State) : stepWork a bad s = readStep a bad s := by
  unfold stepWork
  rw [hk]

/-- A READ of an unmapped folio places zeros (R61). -/
theorem readMiss_unmapped (h : (s.mapEntry f).state = .never ∨ (s.mapEntry f).state = .trimmed) : readMiss a f s =
    advanceRead a (placeFolio a.slot (List.replicate 256 0)
      (setSlot a.slot { s.slot a.slot with flags := { (s.slot a.slot).flags with unmapped := true } } s)) := by
  unfold readMiss
  rcases h with h | h
  · rw [h]
    rfl
  · rw [h]
    rfl

theorem readMiss_poisoned (h : (s.mapEntry f).state = .poisoned) : readMiss a f s = readUnreadable a f s := by
  unfold readMiss
  rw [h]

theorem readMiss_fills (h : (s.mapEntry f).state = .mapped) (hl : s.allocLine = some l) :
    readMiss a f s = requestMedia a (.fill l f) (allocFilling l f s) := by
  unfold readMiss
  rw [h, hl]

theorem readMiss_direct (h : (s.mapEntry f).state = .mapped) (hl : s.allocLine = none) :
    readMiss a f s = requestMedia a (.direct f) s := by
  unfold readMiss
  rw [h, hl]

theorem desc_placed (x : Slot) (hx : x.desc = (s.slot n).desc) (d : FolioData) :
    ((placeFolio n d (setSlot n x s)).slot n).desc = (s.slot n).desc := by
  have hslot : (placeFolio n d (setSlot n x s)).slot n = (setSlot n x s).slot n :=
    congrArg (fun c : Csq => c.slots[n]) (placeFolio_csq n d _)
  rw [hslot, slot_setSlot_self, hx]

/-- Settles O48. -/
theorem readStepPlacesItsFolio : Obligations.ReadStepPlacesItsFolio := by
  unfold Obligations.ReadStepPlacesItsFolio
  intro s a hk
  have hwork (bad : Bool) (u : State) : stepWork a bad u = readStep a bad u := stepWork_read hk bad u
  refine ⟨fun l hl => ?_, fun l hl hstate => ?_, fun l hl hstate => ?_, fun bad hl => ?_, fun h => ?_, fun h => ?_,
    fun l h hl => ?_, fun h hl => ?_, fun u => ⟨endPlacing_empty, endPlacing_placed, endPlacing_reserves, ?_⟩⟩
  · rw [hwork]
    unfold readStep
    rw [show s.findLine (s.stepFolio a) = some l from hl]
    refine advanceRead_eq ?_
    have hslot : (placeFolio a.slot (s.line l).data (touch l s)).slot a.slot = s.slot a.slot :=
      congrArg (fun c : Csq => c.slots[a.slot]) (placeFolio_csq a.slot _ (touch l s))
    rw [hslot]
  · rw [hwork]
    unfold readStep lineError
    rw [show s.findLine (s.stepFolio a) = some l from hl]
    exact congrArg (readMiss a _) (if_neg hstate)
  · rw [hwork]
    unfold readStep lineError
    rw [show s.findLine (s.stepFolio a) = some l from hl]
    exact congrArg (readMiss a _) (if_pos hstate)
  · rw [hwork]
    unfold readStep
    rw [show s.findLine (s.stepFolio a) = none from hl]
    rfl
  · refine (readMiss_unmapped h).trans (advanceRead_eq ?_)
    rw [desc_placed]
    rfl
  · exact readMiss_poisoned h
  · exact readMiss_fills h hl
  · exact readMiss_direct h hl
  · refine ⟨findLine_eq_some_iff u _, findLine_eq_none_iff u _, fun l => allocLine_of_invalid, fun hvalid l older rest hlru hl hold => ?_,
      fun hvalid hnone => ?_⟩
    · rw [allocLine_of_valid hvalid, hlru, List.find?_append, List.find?_eq_none.2 fun m hm => by simpa using hold m hm]
      simp [hl]
    · rw [allocLine_of_valid hvalid, List.find?_eq_none.2 fun m hm => by simpa using hnone m hm]

/-! ### PREFETCH -/

/-- Settles O49. -/
theorem prefetchStepFillsOrPasses : Obligations.PrefetchStepFillsOrPasses := by
  unfold Obligations.PrefetchStepFillsOrPasses
  intro s a bad hk
  have hwork : stepWork a bad s = prefetchStep a s := by
    unfold stepWork
    rw [hk]
  rw [hwork]
  unfold prefetchStep
  refine ⟨fun h => ?_, fun l hnone hmapped hl => ?_, fun hnone hmapped hl => ?_⟩
  · refine (if_pos ?_).trans rfl
    rw [Bool.or_eq_true, Option.isSome_iff_ne_none, bne_iff_ne]
    exact h
  · rw [show s.findLine (s.stepFolio a) = none from hnone, show (s.mapEntry (s.stepFolio a)).state = .mapped from hmapped, hl]
    rfl
  · rw [show s.findLine (s.stepFolio a) = none from hnone, show (s.mapEntry (s.stepFolio a)).state = .mapped from hmapped, hl]
    rfl

end Sys2Proof.Machine
end

section
/-! The steps of a WRITE, TRIM, ERASE_ALL and DISCARD (O50, O51). -/

namespace Sys2Proof.Machine

variable {s t u : State} {n m : Fin 8} {a : Apply} {l k : Fin 32} {f g : Nat}

/-! ### What a cached WRITE does to its line -/

/-- The slots after a cached WRITE of line `l` (R75). -/
theorem slot_writeDirty (l : Fin 32) (f : Nat) (d : FolioData) (s : State) (n : Fin 8) : (writeDirty l f d s).slot n
    = if (s.line l).purgeMark = some n then { s.slot n with flags := { (s.slot n).flags with purgePartial := true } } else s.slot n := by
  have hcsq : (writeDirty l f d s).csq = (givePartial (s.line l).purgeMark s).csq := by simp [writeDirty]
  have hslot : (writeDirty l f d s).slot n = (givePartial (s.line l).purgeMark s).slot n :=
    congrArg (fun c : Csq => c.slots[n]) hcsq
  rw [hslot, slot_givePartial]
  split
  · next h => simp [h]
  · next h => simp [h]

/-- The cache after a cached WRITE of line `l` (R65). -/
theorem fc_writeDirty (l : Fin 32) (f : Nat) (d : FolioData) (s : State) : (writeDirty l f d s).fc = { s.fc with
    lines := s.fc.lines.set l.val { s.line l with
      state := .dirty, folio := f, version := (s.line l).version + 1, purgeMark := none, data := d } l.isLt
    dirtyList := if l ∈ s.fc.dirtyList then s.fc.dirtyList else s.fc.dirtyList ++ [l]
    lru := s.fc.lru.erase l ++ [l] } := by
  have hclear (v : State) : (clearPoison f v).fc = v.fc := by
    unfold clearPoison
    dsimp only
    split
    · rfl
    · rfl
  unfold writeDirty
  dsimp only
  rw [hclear, givePartial_frame]
  unfold touch enlist
  by_cases h : l ∈ s.fc.dirtyList
  · rw [if_pos h, if_pos (by simpa using h)]
    rfl
  · rw [if_neg h, if_neg (by simpa using h)]
    rfl

theorem line_writeDirty (l k : Fin 32) (f : Nat) (d : FolioData) (s : State) : (writeDirty l f d s).line k = if k = l then
    { s.line l with state := .dirty, folio := f, version := (s.line l).version + 1, purgeMark := none, data := d }
    else s.line k := by
  rw [← line_setLine]
  unfold State.line
  rw [fc_writeDirty]
  rfl

theorem writeDirty_frame (l : Fin 32) (f : Nat) (d : FolioData) (s : State) : writeDirty l f d s = { s with
    csq := { s.csq with slots := (writeDirty l f d s).csq.slots }
    fc := { s.fc with
      lines := (writeDirty l f d s).fc.lines, dirtyList := (writeDirty l f d s).fc.dirtyList
      lru := (writeDirty l f d s).fc.lru }
    mm := { s.mm with map := (writeDirty l f d s).mm.map } } := by
  unfold writeDirty
  dsimp only
  rw [clearPoison_frame]
  unfold touch enlist
  split
  · rw [givePartial_frame]
    rfl
  · rw [givePartial_frame]
    rfl

/-- The map after the poison of folio `f` is cleared (R119). -/
theorem mapEntry_clearPoison (f g : Nat) (s : State) : (clearPoison f s).mapEntry g =
    if g = f ∧ (s.mapEntry f).state = .poisoned then { s.mapEntry f with state := s.unpoisoned (s.mapEntry f) } else s.mapEntry g := by
  unfold clearPoison
  dsimp only
  by_cases h : (s.mapEntry f).state = .poisoned
  · rw [if_pos h, mapEntry_putEntry]
    by_cases hg : g = f
    · rw [if_pos hg, if_pos ⟨hg, h⟩]
    · rw [if_neg hg, if_neg fun hc => hg hc.1]
  · rw [if_neg h, if_neg fun hc => h hc.2]

theorem mapEntry_writeDirty (l : Fin 32) (f g : Nat) (d : FolioData) (s : State) : (writeDirty l f d s).mapEntry g =
    if g = f ∧ (s.mapEntry f).state = .poisoned then { s.mapEntry f with state := s.unpoisoned (s.mapEntry f) } else s.mapEntry g := by
  obtain ⟨v, hv, hmm⟩ : ∃ v, writeDirty l f d s = clearPoison f v ∧ v.mm = s.mm := by
    refine ⟨_, rfl, ?_⟩
    rw [givePartial_frame]
    unfold touch enlist
    split
    · rfl
    · rfl
  have hentry (e : Nat) : v.mapEntry e = s.mapEntry e := by unfold State.mapEntry; rw [hmm]
  have hun (e : MapEntry) : v.unpoisoned e = s.unpoisoned e := by
    unfold State.unpoisoned State.cell
    rw [hmm]
  rw [hv, mapEntry_clearPoison, hentry, hentry, hun]

theorem unpoisoned_none {e : MapEntry} (h : e.target = none) : s.unpoisoned e = .never := by
  unfold State.unpoisoned
  rw [h]

theorem unpoisoned_some {e : MapEntry} {loc : Loc} {c : Cell} (h : e.target = some loc) (hc : s.cell loc = some c) :
    s.unpoisoned e = if c.metadata.kind = .trimNote then .trimmed else .mapped := by
  unfold State.unpoisoned
  rw [h]
  dsimp only
  rw [hc]

/-- A WRITE step that has taken its effect goes on, by its command's count. -/
theorem advanceWrite_eq {k : Nat} (hcount : (s.slot a.slot).desc.count = k) : advanceWrite a s =
    if a.step + 1 < k then setApply (some { a with step := a.step + 1, wait := .between }) s
    else completeSlot a.slot .ok k (settleSlots s) := by
  unfold advanceWrite finishCount finishApply State.applyCount
  rw [hcount]
  rfl

theorem desc_writeDirty (l : Fin 32) (f : Nat) (d : FolioData) (s : State) (n : Fin 8) :
    ((writeDirty l f d s).slot n).desc = (s.slot n).desc := by
  rw [slot_writeDirty]
  split
  · rfl
  · rfl

/-- Settles O50. -/
theorem cachedWriteStepWritesItsLine : Obligations.CachedWriteStepWritesItsLine := by
  unfold Obligations.CachedWriteStepWritesItsLine
  refine ⟨fun s a bad hk => ?_, fun s l f data => ⟨?_, fun m hm => ?_, ?_, ?_, ?_, fun m => ?_, fun g hg => ?_, ?_, ?_, fun h => ?_,
    fun h => ⟨fun hnone => ?_, fun loc c htarget hc => ?_⟩, ?_⟩⟩
  · have hwork : stepWork a bad s = cachedStep a s := by
      unfold stepWork
      rw [hk]
    have hcount (l : Fin 32) (d : FolioData) : ((writeDirty l (s.stepFolio a) d s).slot a.slot).desc.count
        = (s.slot a.slot).desc.count := by rw [desc_writeDirty]
    rw [hwork]
    unfold cachedStep
    dsimp only
    refine ⟨fun l hl => ?_, fun hnone hfull => ?_⟩
    · rcases hl with hl | ⟨hnone, hl⟩
      · rw [show s.findLine (s.stepFolio a) = some l from hl]
        exact advanceWrite_eq (hcount l _)
      · rw [show s.findLine (s.stepFolio a) = none from hnone, hl]
        exact advanceWrite_eq (hcount l _)
    · rw [show s.findLine (s.stepFolio a) = none from hnone, hfull]
  · rw [line_writeDirty, if_pos rfl]
  · rw [line_writeDirty, if_neg hm]
  · rw [fc_writeDirty]
  · rw [fc_writeDirty]
  · rw [fc_writeDirty]
  · exact slot_writeDirty l f data s m
  · rw [mapEntry_writeDirty, if_neg fun h => hg h.1]
  · rw [mapEntry_writeDirty]
    split
    · rfl
    · rfl
  · rw [mapEntry_writeDirty]
    split
    · rfl
    · rfl
  · rw [mapEntry_writeDirty, if_neg fun hc => h hc.2]
  · rw [mapEntry_writeDirty, if_pos ⟨rfl, h⟩]
    exact unpoisoned_none hnone
  · rw [mapEntry_writeDirty, if_pos ⟨rfl, h⟩]
    exact unpoisoned_some htarget hc
  · exact writeDirty_frame l f data s

/-! ### The steps that program, invalidate and unmap -/

theorem desc_invalidate (l : Fin 32) (n : Fin 8) (s : State) : ((invalidate l s).slot n).desc = (s.slot n).desc := by
  rw [slot_invalidate]

theorem desc_invalidateAll (ls : List (Fin 32)) (n : Fin 8) (s : State) : ((invalidateAll ls s).slot n).desc = (s.slot n).desc :=
  foldl_keeps (fun v => (v.slot n).desc) (fun v l => desc_invalidate l n v) ls s

theorem desc_cacheUpdate (f : Nat) (d : FolioData) (n : Fin 8) (s : State) : ((cacheUpdate f d s).slot n).desc = (s.slot n).desc := by
  have htouch (l : Fin 32) : ((touch l (writeClean l f d s)).slot n).desc = (s.slot n).desc := desc_writeClean ..
  unfold cacheUpdate
  split
  · exact htouch _
  · split
    · exact htouch _
    · rfl

theorem finishCount_eq {k : Nat} (hcount : (s.slot a.slot).desc.count = k) :
    finishCount a s = completeSlot a.slot .ok k (settleSlots s) := by
  unfold finishCount finishApply State.applyCount
  rw [hcount]

theorem ticketIn_iff (s : State) (ls : List (Fin 32)) : s.ticketIn ls = true ↔
    ∃ k, s.fc.ticket = some k ∧ k.line ∈ ls ∧ (s.line k.line).folio = k.folio := by
  unfold State.ticketIn
  cases s.fc.ticket with
  | none => simp
  | some k => simp

/-- A step of an atomic WRITE after its commit note: the cache update of its next accepted folio (R145). -/
theorem atomicStep_update (h : (s.slot a.slot).desc.count < a.step) : atomicStep a s = atomicUpdate a s := by
  unfold atomicStep
  exact if_pos h

/-- The first step of an atomic WRITE takes its sequences (R115). -/
theorem atomicStep_first (h : a.step = 0) (hpos : 0 < (s.slot a.slot).desc.count) : atomicStep a s =
    requestMedia { a with seq0 := s.mm.seq }
      (.prog (tentativeProg (s.slot a.slot).desc.folio s.mm.seq 0 (s.bufferFolio a.slot 0)))
      (takeSeq ((s.slot a.slot).desc.count + 1) s) := by
  unfold atomicStep
  dsimp only
  rw [if_neg (by omega), if_pos (by omega), if_pos h, if_pos h, h]
  rfl

theorem atomicStep_program (h : 0 < a.step) (hlt : a.step < (s.slot a.slot).desc.count) : atomicStep a s =
    requestMedia a (.prog (tentativeProg ((s.slot a.slot).desc.folio + a.step) a.seq0 a.step (s.bufferFolio a.slot a.step))) s := by
  unfold atomicStep
  dsimp only
  rw [if_neg (by omega), if_pos hlt, if_neg (by omega), if_neg (by omega)]

theorem atomicStep_commit (h : 0 < a.step) (he : a.step = (s.slot a.slot).desc.count) : atomicStep a s =
    requestMedia a (.prog (commitProg (s.slot a.slot).desc.folio (s.slot a.slot).desc.count a.seq0)) s := by
  unfold atomicStep
  dsimp only
  rw [if_neg (by omega), if_neg (by omega), if_neg (by omega), if_neg (by omega)]

/-- A request that takes no sequence. -/
theorem requestMedia_eq (a : Apply) (p : Prog) (s : State) : requestMedia a (.prog p) s = { s with
    csq := { s.csq with apply := some { a with wait := .forMedia (.prog p) } }
    mm := { s.mm with seq := s.mm.seq + BitVec.ofNat 32 0 } } := by
  have hseq : s.mm.seq + BitVec.ofNat 32 0 = s.mm.seq := BitVec.add_zero _
  rw [hseq]
  rfl

theorem stepWork_trim (hk : a.kind = .trim ∨ a.kind = .eraseAll) (bad : Bool) (s : State) : stepWork a bad s = trimStep a s := by
  unfold stepWork
  rcases hk with hk | hk
  · rw [hk]
  · rw [hk]

theorem trimStep_zero (h : a.step = 0) (s : State) : trimStep a s = trimInvalidate a s := by
  unfold trimStep
  rw [h]
  rfl

theorem trimStep_one (h : a.step = 1) (s : State) : trimStep a s = trimNote a s := by
  unfold trimStep
  rw [h]
  rfl

theorem trimStep_two (h : a.step = 2) (s : State) : trimStep a s = trimUnmap a s := by
  unfold trimStep
  rw [h]
  rfl

/-- The end of a DISCARD (R71). -/
theorem discardStep_eq (a : Apply) (s : State) : discardStep a s = completeSlot a.slot .ok (s.slot a.slot).desc.count
    (settleSlots (modSlot a.slot (fun sl => { sl with
        detail := BitVec.ofNat 32 (s.linesIn (s.slot a.slot).desc.folio (s.slot a.slot).desc.count).length
        flags := { sl.flags with discardRaced := (sl.flags.discardRaced
          || s.ticketIn (s.linesIn (s.slot a.slot).desc.folio (s.slot a.slot).desc.count)) } })
      (invalidateAll (s.linesIn (s.slot a.slot).desc.folio (s.slot a.slot).desc.count) s))) := by
  unfold discardStep
  refine finishCount_eq ?_
  rw [slot_modSlot, if_pos rfl]
  exact congrArg Desc.count (desc_invalidateAll _ _ _)

/-- Settles O51. -/
theorem programmingStepsRequest : Obligations.ProgrammingStepsRequest := by
  unfold Obligations.ProgrammingStepsRequest
  refine ⟨fun s a bad => ?_, fun s l => ⟨rfl, fun n => slot_invalidate l n s⟩, fun s => ⟨rfl, fun l ls => rfl⟩⟩
  have hatomic (hk : a.kind = .writeAtomic) : stepWork a bad s = atomicStep a s := by
    unfold stepWork
    rw [hk]
  refine ⟨fun hk => ?_, fun hk h0 hpos => ?_, fun hk h0 hlt => ?_, fun hk h0 he => ?_, fun i rest hk hlt hacc hrest => ?_,
    fun i hk hlt hacc => ?_, fun k hka hk => ?_, fun hk => ?_⟩
  · unfold stepWork
    rw [hk]
    rfl
  · rw [hatomic hk, atomicStep_first h0 hpos]
    have hseq : s.mm.seq + BitVec.ofNat 32 0 = s.mm.seq := BitVec.add_zero _
    unfold tentativeProg
    rw [hseq]
    rfl
  · rw [hatomic hk, atomicStep_program h0 hlt]
    exact requestMedia_eq _ _ _
  · rw [hatomic hk, atomicStep_commit h0 he]
    exact requestMedia_eq _ _ _
  · rw [hatomic hk, atomicStep_update hlt]
    unfold atomicUpdate
    rw [hacc]
    exact if_neg (by simpa using hrest)
  · rw [hatomic hk, atomicStep_update hlt]
    unfold atomicUpdate
    rw [hacc]
    exact (if_pos rfl).trans (finishCount_eq (congrArg Desc.count (desc_cacheUpdate _ _ _ _)))
  · subst hka
    have hstepWork : stepWork a bad s = trimStep a s := stepWork_trim hk bad s
    rw [hstepWork]
    refine ⟨fun hstep => ?_, fun hstep => ?_, fun hstep => ?_⟩
    · rw [trimStep_zero hstep]
      unfold trimInvalidate nextStep
      rw [hstep]
      rfl
    · rw [trimStep_one hstep]
      rfl
    · rw [trimStep_two hstep]
      refine ⟨unmapRange (s.noteRange a).1 (s.noteRange a).2 a.noteEntry s, ?_, unmapRange_frame _ _ _ s, fun f hf => ?_⟩
      · unfold trimUnmap finishApply
        dsimp only
        rcases hk with hk | hk
        · rw [hk]
          rfl
        · rw [hk]
          rfl
      · exact mapEntry_unmapRange _ _ _ _ fun _ _ => hf
  · have hwork : stepWork a bad s = discardStep a s := by
      unfold stepWork
      rw [hk]
    rw [hwork, discardStep_eq]
    refine ⟨fun hraced => ?_, fun hraced => ?_⟩
    · have hticket : s.ticketIn (s.linesIn (s.slot a.slot).desc.folio (s.slot a.slot).desc.count) = true :=
        (ticketIn_iff s _).2 hraced
      rw [hticket]
      simp only [Bool.or_true]
      rfl
    · have hticket : s.ticketIn (s.linesIn (s.slot a.slot).desc.folio (s.slot a.slot).desc.count) = false :=
        Bool.not_eq_true _ |>.mp (mt (ticketIn_iff s _).1 hraced)
      rw [hticket]
      simp only [Bool.or_false]
      rfl

end Sys2Proof.Machine
end

section
/-! The grant of the media port (O52). -/

namespace Sys2Proof.Machine

variable {s t u : State} {n : Fin 8} {a : Apply} {l : Fin 32} {f g : Nat}

/-! ### The order -/

theorem portOpen_iff (s : State) : s.portOpen = true ↔
    ¬(s.mm.port ≠ none ∨ s.mount ≠ none ∨ (s.pwr.state ≠ .active ∧ s.pwr.state ≠ .idle)) := by
  unfold State.portOpen State.awake
  simp only [Bool.and_eq_true, Option.isNone_iff_eq_none, Bool.or_eq_true, beq_iff_eq]
  tauto

/-- Reclaim's progress changes the media's state, and raises events (R125). -/
theorem reclaimProgress_frame (s : State) :
    ∃ m e, reclaimProgress s = { s with mm := m, ntc := { s.ntc with evPending := e } } := by
  unfold reclaimProgress
  split
  · exact ⟨_, _, rfl⟩
  · split
    · exact ⟨_, _, rfl⟩
    · split
      · exact ⟨_, _, rfl⟩
      · dsimp only
        split
        · rw [retireGroup_frame]
          exact ⟨_, _, rfl⟩
        · split
          · rw [reserveFell_frame, retireGroup_frame]
            exact ⟨_, _, rfl⟩
          · exact ⟨_, _, rfl⟩

theorem frozen_reclaimProgress (s : State) : (reclaimProgress s).frozen = s.frozen := by
  obtain ⟨m, e, h⟩ := reclaimProgress_frame s
  rw [h]
  rfl

/-- The order of the grants outside a freeze (R135). -/
theorem grantFirst_eq (hf : s.frozen = false) : grantFirst s =
    (if s.freeCount < 3 then
      ((((grantReclaim s).or (grantApply s)).or (grantTicket s)).or (grantRelocation s)).getD s
    else ((((grantApply s).or (grantTicket s)).or (grantReclaim s)).or (grantRelocation s)).getD s) := by
  have hfirst (w x y z : Option State) : [w, x, y, z].findSome? id = ((w.or x).or y).or z := by
    cases w <;> cases x <;> cases y <;> cases z <;> rfl
  unfold grantFirst
  rw [hf, if_neg (by decide)]
  dsimp only
  by_cases hc : s.freeCount < 3
  · rw [if_pos ((foreground_iff s).2 hc), if_pos hc, hfirst]
  · rw [if_neg (mt (foreground_iff s).1 hc), if_neg hc, hfirst]

theorem exec_portGrant (hrest : s.AtRest) : exec .mediaPortGrant s = .next (endUnit (portGrant s)) := by
  change Host.Outcome.next (endUnit (portGrant (caughtUp s))) = _
  rw [caughtUp_atRest hrest]

theorem exec_portGrant_open (hrest : s.AtRest) (ho : s.portOpen = true) (hf : s.frozen = false) :
    exec .mediaPortGrant s = .next (endUnit (grantFirst (reclaimProgress s))) := by
  rw [exec_portGrant hrest]
  unfold portGrant
  rw [if_pos ho, hf]
  rfl

/-! ### What each operation begins with -/

section
variable {p : Prog}

theorem grantApply_program (ha : s.csq.apply = some a) (hw : a.wait = .forMedia (.prog p))
    (hr : s.frozen = false ∨ a.heldRetry = false) (hg : s.mm.hostOpen = some g) :
    grantApply s = some (grantProgram .apply g p s) := by
  unfold grantApply
  rw [ha]
  dsimp only
  rw [hw]
  dsimp only
  rw [hg, if_neg (by rcases hr with h | h <;> simp [h])]
  rfl

theorem grantApply_held (ha : s.csq.apply = some a) (hw : a.wait = .forMedia (.prog p)) (hf : s.frozen = true)
    (hr : a.heldRetry = true) : grantApply s = none := by
  unfold grantApply
  rw [ha]
  dsimp only
  rw [hw]
  exact if_pos (by simp [hf, hr])

theorem grantApply_noGroup (ha : s.csq.apply = some a) (hw : a.wait = .forMedia (.prog p)) (hg : s.mm.hostOpen = none) :
    grantApply s = none := by
  unfold grantApply
  rw [ha]
  dsimp only
  rw [hw, hg]
  dsimp only
  split
  · rfl
  · rfl

end

/-- A read resolves the map as it stands (R88). -/
theorem grantApply_read {loc : Loc} (ha : s.csq.apply = some a)
    (hw : a.wait = .forMedia (.fill l f) ∨ a.wait = .forMedia (.direct f)) (hm : (s.mapEntry f).state = .mapped)
    (ht : (s.mapEntry f).target = some loc) : grantApply s = some (grant .apply (.read loc) s) := by
  unfold grantApply
  rw [ha]
  dsimp only
  rcases hw with hw | hw
  · rw [hw]
    dsimp only
    rw [if_pos hm, ht]
    rfl
  · rw [hw]
    dsimp only
    rw [if_pos hm, ht]
    rfl

theorem grantApply_fillUnmapped (ha : s.csq.apply = some a) (hw : a.wait = .forMedia (.fill l f))
    (hm : (s.mapEntry f).state ≠ .mapped) : grantApply s = some (answerUnmapped a f (invalidate l s)) := by
  unfold grantApply
  rw [ha]
  dsimp only
  rw [hw]
  exact if_neg hm

theorem grantApply_directUnmapped (ha : s.csq.apply = some a) (hw : a.wait = .forMedia (.direct f))
    (hm : (s.mapEntry f).state ≠ .mapped) : grantApply s = some (answerUnmapped a f s) := by
  unfold grantApply
  rw [ha]
  dsimp only
  rw [hw]
  exact if_neg hm

theorem grantApply_none (h : ∀ a r, s.csq.apply = some a → a.wait ≠ .forMedia r) : grantApply s = none := by
  unfold grantApply
  cases ha : s.csq.apply with
  | none => rfl
  | some a =>
    dsimp only
    cases hw : a.wait with
    | forMedia r => exact absurd hw (h a r ha)
    | _ => rfl

/-- The copy of a note carries the mark of a copy (R125). -/
theorem copyProg_note {c : Cell} (h : c.metadata.kind = .trimNote ∨ c.metadata.kind = .commitNote) : c.copyProg false =
    { metadata := { c.metadata with copyMark := true }, data := c.data, rotten := false } := by
  have hkind : ¬c.metadata.kind = .tentative := by
    rcases h with h | h
    · rw [h]; decide
    · rw [h]; decide
  unfold Cell.copyProg
  rw [if_neg hkind]

theorem grantReclaim_none (h : s.mm.victim = none) : grantReclaim s = none := by
  unfold grantReclaim
  rw [h]

theorem grantReclaim_copy {v : Victim} {c : Copy} (hv : s.mm.victim = some v) (hc : v.copy = some c) :
    grantReclaim s = s.mm.reclaimOpen.map fun g => grantProgram .reclaim g c.prog s := by
  unfold grantReclaim
  rw [hv]
  dsimp only
  rw [hc]

theorem grantReclaim_erase {v : Victim} (hv : s.mm.victim = some v) (hc : v.copy = none) (hp : 64 ≤ v.pos) :
    grantReclaim s = some (grantErase .reclaim v.group s) := by
  unfold grantReclaim
  rw [hv]
  dsimp only
  rw [hc]
  exact if_neg (not_lt.2 hp)

section
variable {v : Victim} (hv : s.mm.victim = some v) (hc : v.copy = none) (hp : v.pos < 64)
include hv hc hp

theorem grantReclaim_empty (hcell : s.cell (v.group * 64 + v.pos) = none) : grantReclaim s = none := by
  unfold grantReclaim
  rw [hv]
  dsimp only
  rw [hc]
  dsimp only
  rw [if_pos (show v.pos < Config.groupFolios from hp), show s.cell (v.group * Config.groupFolios + v.pos) = none from hcell]

theorem grantReclaim_note {c : Cell} (hcell : s.cell (v.group * 64 + v.pos) = some c)
    (hk : c.metadata.kind = .trimNote ∨ c.metadata.kind = .commitNote) : grantReclaim s = s.mm.reclaimOpen.map fun g =>
      grantProgram .reclaim g (c.copyProg false) { s with mm := { s.mm with
        victim := some { v with copy := some { src := v.group * 64 + v.pos, prog := c.copyProg false } } } } := by
  unfold grantReclaim
  rw [hv]
  dsimp only
  rw [hc]
  dsimp only
  rw [if_pos (show v.pos < Config.groupFolios from hp), show s.cell (v.group * Config.groupFolios + v.pos) = some c from hcell]
  exact if_pos (by simpa using hk)

theorem grantReclaim_read {c : Cell} (hcell : s.cell (v.group * 64 + v.pos) = some c)
    (hk : c.metadata.kind = .data ∨ c.metadata.kind = .tentative) :
    grantReclaim s = some (grant .reclaim (.read (v.group * 64 + v.pos)) s) := by
  have hnot : ¬(c.metadata.kind = .trimNote || c.metadata.kind = .commitNote) = true := by
    rcases hk with h | h
    · simp [h]
    · simp [h]
  unfold grantReclaim
  rw [hv]
  dsimp only
  rw [hc]
  dsimp only
  rw [if_pos (show v.pos < Config.groupFolios from hp), show s.cell (v.group * Config.groupFolios + v.pos) = some c from hcell]
  exact if_neg hnot

end

theorem grantRelocation_copy {c : Copy} (hc : s.mm.relocCopy = some c) :
    grantRelocation s = s.mm.reclaimOpen.map fun g => grantProgram .relocation g c.prog s := by
  unfold grantRelocation
  rw [hc]

/-- Settles O52. -/
theorem portGrantFollowsTheOrder : Obligations.PortGrantFollowsTheOrder := by
  unfold Obligations.PortGrantFollowsTheOrder
  refine ⟨fun s hrest => ⟨fun hclosed => ?_, fun hopen hf => ?_⟩, fun s => ?_⟩
  · rw [exec_portGrant hrest]
    unfold portGrant
    rw [if_neg fun ho => (portOpen_iff s).1 ho hclosed]
  · rw [exec_portGrant_open hrest ((portOpen_iff s).2 hopen) hf,
      grantFirst_eq ((frozen_reclaimProgress s).trans hf)]
    dsimp only
    generalize reclaimProgress s = r
    by_cases hc : r.freeCount < 3
    · rw [if_pos hc]
      simp only [hc, true_implies, not_true_eq_false, false_implies]
      refine ⟨fun u h => ?_, fun u h ha => ?_, fun u h ha ht => ?_, fun _ _ _ => trivial, fun u ha ht h hl => ?_, fun ha ht h hl => ?_⟩
      · rw [h]; rfl
      · rw [h, ha]; rfl
      · rw [h, ha, ht]; rfl
      · rw [h, ha, ht, hl]; rfl
      · rw [h, ha, ht, hl]; rfl
    · rw [if_neg hc]
      simp only [hc, false_implies, true_implies, not_false_eq_true]
      refine ⟨fun _ => trivial, fun u ha => ?_, fun u ha ht => ?_, fun u ha ht h => ?_, fun u ha ht h hl => ?_, fun ha ht h hl => ?_⟩
      · rw [ha]; rfl
      · rw [ha, ht]; rfl
      · rw [ha, ht, h]; rfl
      · rw [ha, ht, h, hl]; rfl
      · rw [ha, ht, h, hl]; rfl
  · refine ⟨fun a p g ha hw hr hg => grantApply_program ha hw hr hg, fun a p ha hw hf hr => grantApply_held ha hw hf hr,
      fun a f ha hm => ⟨fun l hw => grantApply_fillUnmapped ha hw hm, fun hw => grantApply_directUnmapped ha hw hm,
        fun u => ⟨readMiss_poisoned, readMiss_unmapped⟩⟩,
      grantApply_none, fun a p ha hw hg => grantApply_noGroup ha hw hg, fun a l f loc ha hw hm ht => grantApply_read ha hw hm ht,
      fun k g hk hg => ?_, fun h => ?_, fun v c g hv hc hg => ?_, fun v c hv hc hp hcell hk => ⟨fun g hg => ?_, fun hg => ?_⟩,
      fun v c hv hc hg => ?_, fun v hv hc hp hcell => grantReclaim_empty hv hc hp hcell, grantReclaim_none,
      fun v c hv hc hp hcell hk => grantReclaim_read hv hc hp hcell hk, fun v hv hc hp => grantReclaim_erase hv hc hp,
      fun loc rest hc hq => ?_, fun c g hc hg => ?_, fun c hc hg => ?_, fun hc hq => ?_⟩
    · unfold grantTicket
      rw [hk, hg]
      rfl
    · unfold grantTicket
      cases hk : s.fc.ticket with
      | none => rfl
      | some k => rw [h.resolve_left (by rw [hk]; nofun)]; rfl
    · rw [grantReclaim_copy hv hc, hg]
      rfl
    · rw [grantReclaim_note hv hc hp hcell hk, hg, copyProg_note hk]
      rfl
    · rw [grantReclaim_note hv hc hp hcell hk, hg]
      rfl
    · rw [grantReclaim_copy hv hc, hg]
      rfl
    · unfold grantRelocation
      rw [hc, hq]
      rfl
    · rw [grantRelocation_copy hc, hg]
      rfl
    · rw [grantRelocation_copy hc, hg]
      rfl
    · unfold grantRelocation
      rw [hc, hq]

end Sys2Proof.Machine
end

section
/-! The result of a folio read (O53). -/

namespace Sys2Proof.Machine

variable {s t u : State} {n : Fin 8} {a : Apply} {l : Fin 32} {f g : Nat} {loc : Loc} {r : ReadResult} {q : Requester}

/-! ### The row -/

theorem exec_read (h : s.PortRuns q (.read loc)) (hq : q ≠ .mount) :
    exec (.mediaReadComplete r) s = .next (endUnit (readResult q loc r s)) := by
  obtain ⟨hrest, ticks, hport⟩ := h
  change Host.Outcome.next (endUnit (readComplete r (caughtUp s))) = _
  rw [caughtUp_atRest hrest]
  unfold readComplete
  rw [hport]
  dsimp only
  rw [if_neg hq]

/-- What the media reports, where the copy of an uncorrectable folio is reported as one. -/
theorem resultAt_eq (h : ∀ c, s.cell loc = some c → c.rotten = true → r = .uncorrectable) : s.resultAt loc r = r := by
  unfold State.resultAt
  cases hc : s.cell loc with
  | none => rfl
  | some c =>
    dsimp only
    split
    · next hr => exact (h c hc hr).symm
    · rfl

theorem resultAt_rotten {c : Cell} (hc : s.cell loc = some c) (hr : c.rotten = true) : s.resultAt loc r = .uncorrectable := by
  unfold State.resultAt
  rw [hc]
  exact if_pos hr

/-- The state in which the port is free and the read is counted (R79). -/
def State.readCounted (s : State) (r : ReadResult) : State := countRead r (clearPort s)

theorem readCounted_csq (s : State) (r : ReadResult) : (s.readCounted r).csq = s.csq := by cases r <;> rfl

theorem readCounted_cell (s : State) (r : ReadResult) (loc : Loc) : (s.readCounted r).cell loc = s.cell loc := by cases r <;> rfl

theorem readCounted_victim (s : State) (r : ReadResult) : (s.readCounted r).mm.victim = s.mm.victim := by cases r <;> rfl

section
variable (hres : s.resultAt loc r = r)
include hres

/-- A read of an apply step: its data, or the folio that it has found uncorrectable. -/
theorem readResult_apply {m : MediaReq} (ha : s.csq.apply = some a) (hw : a.wait = .forMedia m) : readResult .apply loc r s =
    if r = .uncorrectable then applyReadBad a m (poisonTarget loc (s.readCounted r))
    else applyReadGood a m (correctedBits r) (s.dataAt loc) (offerWorn loc (correctedBits r) (s.readCounted r)) := by
  have hdata : (s.readCounted r).dataAt loc = s.dataAt loc := by
    unfold State.dataAt
    rw [readCounted_cell]
  have happly : (s.readCounted r).csq.apply = some a := by rw [readCounted_csq, ha]
  unfold readResult
  rw [hres]
  change applyRead loc r (s.readCounted r) = _
  unfold applyRead
  rw [happly]
  dsimp only
  rw [hw]
  dsimp only
  rw [hdata]

theorem readResult_orphan : readResult .orphan loc r s =
    if r = .uncorrectable then poisonTarget loc (s.readCounted r) else offerWorn loc (correctedBits r) (s.readCounted r) := by
  unfold readResult
  rw [hres]
  rfl

theorem readResult_relocation : readResult .relocation loc r s = if r = .uncorrectable then poisonTarget loc (s.readCounted r)
    else { s.readCounted r with mm := { (s.readCounted r).mm with relocCopy := (s.readCounted r).copyOf loc false } } := by
  unfold readResult
  rw [hres]
  rfl

end

/-- The state in which reclaim's read is counted, and its folio poisoned if it was uncorrectable. -/
def State.reclaimRead (s : State) (loc : Loc) (r : ReadResult) : State :=
  if r = .uncorrectable then poisonTarget loc (s.readCounted r) else s.readCounted r

theorem reclaimRead_same (s : State) (loc : Loc) (r : ReadResult) :
    (s.reclaimRead loc r).mm.victim = s.mm.victim ∧ (s.reclaimRead loc r).mm.flash = s.mm.flash := by
  have hflash : (s.readCounted r).mm.flash = s.mm.flash := by cases r <;> rfl
  unfold State.reclaimRead
  split
  · rw [poisonTarget_frame]
    exact ⟨readCounted_victim s r, hflash⟩
  · exact ⟨readCounted_victim s r, hflash⟩

theorem copyOf_eq {x : Cell} (h : s.cell loc = some x) (rotten : Bool) :
    s.copyOf loc rotten = some { src := loc, prog := x.copyProg rotten } := by
  unfold State.copyOf
  rw [h]
  rfl

theorem readResult_reclaim {v : Victim} {x : Cell} (hres : s.resultAt loc r = r) (hv : s.mm.victim = some v)
    (hx : s.cell loc = some x) : readResult .reclaim loc r s = { s.reclaimRead loc r with mm := { (s.reclaimRead loc r).mm with
      victim := some { v with copy := some { src := loc, prog := x.copyProg (decide (r = .uncorrectable)) } } } } := by
  obtain ⟨hvictim, hflash⟩ := reclaimRead_same s loc r
  have hcell : (s.reclaimRead loc r).cell loc = some x := by
    unfold State.cell
    rw [hflash]
    exact hx
  have hbeq : (r == ReadResult.uncorrectable) = decide (r = .uncorrectable) := rfl
  unfold readResult
  rw [hres]
  change Machine.reclaimRead loc r (s.readCounted r) = _
  unfold Machine.reclaimRead
  change (match (s.reclaimRead loc r).mm.victim with
    | some v => { s.reclaimRead loc r with mm := { (s.reclaimRead loc r).mm with
        victim := some { v with copy := (s.reclaimRead loc r).copyOf loc (r == ReadResult.uncorrectable) } } }
    | none => s.reclaimRead loc r) = _
  rw [hvictim, hv, copyOf_eq hcell, hbeq]

/-! ### The poison of a target -/

/-- The entries that cover one folio. -/
theorem overlaps_one (f : Nat) : (fun r : Rsv => r.overlaps f 1) = fun e => decide (e.start ≤ f ∧ f < e.start + e.length) := by
  funext r
  unfold Rsv.overlaps
  rw [decide_eq_decide]
  omega

/-- An uncorrectable folio that is its entry's target is poisoned, and breaks the reservations that cover it (R109, R119). -/
theorem poisonTarget_eq {c : Cell} (hc : s.cell loc = some c) (ht : (s.mapEntry c.metadata.start).target = some loc)
    (hm : (s.mapEntry c.metadata.start).state = .mapped) : poisonTarget loc s =
      breakWhere (fun e => decide (e.start ≤ c.metadata.start ∧ c.metadata.start < e.start + e.length)) .media
        (putEntry c.metadata.start { s.mapEntry c.metadata.start with state := .poisoned } s) := by
  unfold poisonTarget
  rw [hc]
  dsimp only
  rw [if_pos (by simp [ht, hm])]
  unfold poisonFolio
  dsimp only
  rw [if_neg (by rw [hm]; decide), overlaps_one]

theorem poisonTarget_stays (h : ∀ c, s.cell loc = some c →
    (s.mapEntry c.metadata.start).target ≠ some loc ∨ (s.mapEntry c.metadata.start).state ≠ .mapped) : poisonTarget loc s = s := by
  unfold poisonTarget
  split
  · next c hc =>
    refine if_neg ?_
    have hno := h c hc
    rcases hno with h | h
    · simp [h]
    · simp [h]
  · rfl

/-! ### The statement -/

theorem noteCorrection_pos {bits : Nat} (h : 0 < bits) (n : Fin 8) (s : State) : noteCorrection n bits s = setSlot n { s.slot n with
    flags := { (s.slot n).flags with corrected := true }
    detail := BitVec.ofNat 32 (max (s.slot n).detail.toNat bits) } s := by
  unfold noteCorrection
  rw [if_neg (Nat.pos_iff_ne_zero.1 h)]
  rfl

/-- Settles O53. -/
theorem readResultIsHandled : Obligations.ReadResultIsHandled := by
  unfold Obligations.ReadResultIsHandled
  refine ⟨fun s loc r hrot => ?_, fun s q loc r c h hq hc hr => ?_, fun s a => ?_, fun s loc => ?_⟩
  · have hres := resultAt_eq hrot
    have hrow {q : Requester} {u : State} (h : s.PortRuns q (.read loc)) (hq : q ≠ .mount) (hu : readResult q loc r s = u) :
        exec (.mediaReadComplete r) s = .next (endUnit u) := by rw [exec_read h hq, hu]
    refine ⟨fun a h ha => ⟨fun l f hw => ⟨fun hr hk => ?_, fun hr hk => ?_, fun hr hk => ?_, fun hr hk => ?_⟩,
      fun f hw => ⟨fun hr => ?_, fun hr => ?_⟩⟩, fun h => ?_, fun h => ⟨fun hr => ?_, fun x hr hx => ?_⟩, fun v x h hv hx => ?_⟩
    · refine hrow h (by decide) ((readResult_apply hres ha hw).trans ?_)
      subst hr
      rw [if_pos rfl]
      unfold applyReadBad
      exact if_neg (by rw [hk]; decide)
    · refine hrow h (by decide) ((readResult_apply hres ha hw).trans ?_)
      subst hr
      rw [if_pos rfl]
      unfold applyReadBad
      exact if_pos hk
    · refine hrow h (by decide) ((readResult_apply hres ha hw).trans ?_)
      rw [if_neg hr]
      unfold applyReadGood
      refine (if_neg (by rw [hk]; decide)).trans ?_
      cases r with
      | uncorrectable => exact absurd rfl hr
      | clean => rfl
      | corrected b => rfl
    · refine hrow h (by decide) ((readResult_apply hres ha hw).trans ?_)
      rw [if_neg hr]
      unfold applyReadGood
      refine (if_pos hk).trans ?_
      cases r with
      | uncorrectable => exact absurd rfl hr
      | clean => rfl
      | corrected b => rfl
    · refine hrow h (by decide) ((readResult_apply hres ha hw).trans ?_)
      subst hr
      rw [if_pos rfl]
      rfl
    · refine hrow h (by decide) ((readResult_apply hres ha hw).trans ?_)
      rw [if_neg hr]
      cases r with
      | uncorrectable => exact absurd rfl hr
      | clean => rfl
      | corrected b => rfl
    · refine hrow h (by decide) ((readResult_orphan hres).trans ?_)
      cases r with
      | uncorrectable => rfl
      | clean => rfl
      | corrected b => rfl
    · refine hrow h (by decide) ((readResult_relocation hres).trans ?_)
      subst hr
      rfl
    · refine hrow h (by decide) ((readResult_relocation hres).trans ?_)
      rw [if_neg hr, copyOf_eq ((readCounted_cell s r loc).trans hx)]
      cases r with
      | uncorrectable => exact absurd rfl hr
      | clean => rfl
      | corrected b => rfl
    · refine hrow h (by decide) (readResult_reclaim hres hv hx |>.trans ?_)
      cases r with
      | uncorrectable => rfl
      | clean => rfl
      | corrected b => rfl
  · rw [exec_read h hq, exec_read h hq]
    unfold readResult
    rw [resultAt_rotten hc hr, resultAt_rotten hc hr]
  · have hover (h : (s.slot a.slot).desc.count ≤ a.step + 1) : ¬a.step + 1 < s.applyCount a := not_lt.2 h
    refine ⟨fun h => ⟨if_pos h, if_pos h⟩, fun h => ⟨if_neg (hover h), if_neg (hover h)⟩, fun f => rfl, rfl,
      fun bits h => noteCorrection_pos h _ s⟩
  · refine ⟨fun hc => poisonTarget_stays fun c hcell => ?_, fun hroom hnew => ?_, fun hfull => ?_, fun l data => rfl, fun c hc => ?_⟩
    · rw [hc] at hcell
      cases hcell
    · unfold offerRelocation
      refine if_neg ?_
      have hcap : Config.relocationCapacity = 16 := rfl
      simp [hnew, hcap, hroom]
    · unfold offerRelocation
      have hcap : Config.relocationCapacity = 16 := rfl
      refine (if_pos ?_).trans rfl
      rw [Bool.or_eq_true, decide_eq_true_eq, hcap, List.contains_iff_mem]
      exact hfull.symm
    · refine ⟨fun hno => poisonTarget_stays fun c' hc' => ?_, fun ht hm => ?_⟩
      · rw [hc] at hc'
        cases hc'
        exact hno
      · have hpoisoned := poisonTarget_eq hc ht hm
        obtain ⟨u, hu⟩ : ∃ u, u = putEntry c.metadata.start { s.mapEntry c.metadata.start with state := .poisoned } s := ⟨_, rfl⟩
        rw [← hu] at hpoisoned
        have hmap : (poisonTarget loc s).mm.map = u.mm.map := by rw [hpoisoned, breakWhere_frame]
        refine ⟨?_, fun g => ?_, ?_, fun last hlast => ⟨?_, ?_⟩⟩
        · rw [hmap, hpoisoned, hu]
          rfl
        · rw [← mapEntry_putEntry, ← hu]
          unfold State.mapEntry
          rw [hmap]
        · rw [hpoisoned, breakWhere_entries, hu]
          rfl
        · rw [hpoisoned, breakWhere_last (by rw [hu]; exact hlast)]
        · rw [hpoisoned, breakWhere_last (by rw [hu]; exact hlast), hu]
          rfl

end Sys2Proof.Machine
end

section
/-! A program of an apply step has landed (O54). -/

namespace Sys2Proof.Machine

variable {s t u : State} {n m : Fin 8} {a : Apply} {l k : Fin 32} {f g : Nat} {loc : Loc} {p : Prog} {q : Requester}

/-! ### The position that a program uses up -/

/-- The group that a program uses up a position of (R113, R120). -/
theorem group_advancePosition (loc : Loc) (s : State) (h : Nat) : (advancePosition loc s).group h =
    if h = loc / 64 then { s.group (loc / 64) with
      state := if loc % 64 = 63 ∧ (s.group (loc / 64)).state = .opened then .full else (s.group (loc / 64)).state
      nextFree := loc % 64 + 1 }
    else s.group h := by
  unfold advancePosition
  dsimp only
  split
  · next hc =>
    rw [Bool.and_eq_true, decide_eq_true_eq, decide_eq_true_eq] at hc
    have hlast : loc % 64 = 63 := Nat.succ_injective hc.1
    have hfull : (if loc % 64 = 63 ∧ (s.group (loc / 64)).state = .opened then GroupState.full
        else (s.group (loc / 64)).state) = .full := if_pos ⟨hlast, hc.2⟩
    rw [hfull]
    exact group_putGroup (groupOf loc) h { s.group (groupOf loc) with state := .full, nextFree := loc % 64 + 1 } s
  · next hc =>
    rw [Bool.and_eq_true, decide_eq_true_eq, decide_eq_true_eq] at hc
    have hstays : (if loc % 64 = 63 ∧ (s.group (loc / 64)).state = .opened then GroupState.full
        else (s.group (loc / 64)).state) = (s.group (loc / 64)).state :=
      if_neg fun hand => hc ⟨congrArg (· + 1) hand.1, hand.2⟩
    rw [hstays]
    exact group_putGroup _ _ _ _

/-- The open groups after a program has used up a position. -/
theorem roles_advancePosition (loc : Loc) (s : State) :
    ((advancePosition loc s).mm.hostOpen = if loc % 64 = 63 ∧ (s.group (loc / 64)).state = .opened
        ∧ s.mm.hostOpen = some (loc / 64) then none else s.mm.hostOpen)
      ∧ (advancePosition loc s).mm.reclaimOpen = if loc % 64 = 63 ∧ (s.group (loc / 64)).state = .opened
        ∧ s.mm.reclaimOpen = some (loc / 64) then none else s.mm.reclaimOpen := by
  unfold advancePosition
  dsimp only
  split
  · next hc =>
    rw [Bool.and_eq_true, decide_eq_true_eq, decide_eq_true_eq] at hc
    have hlast : loc % 64 = 63 := Nat.succ_injective hc.1
    have hstate : (s.group (loc / 64)).state = .opened := hc.2
    simp only [hlast, hstate, true_and]
    exact ⟨rfl, rfl⟩
  · next hc =>
    rw [Bool.and_eq_true, decide_eq_true_eq, decide_eq_true_eq] at hc
    rw [if_neg fun hand => hc ⟨congrArg (· + 1) hand.1, hand.2.1⟩, if_neg fun hand => hc ⟨congrArg (· + 1) hand.1, hand.2.1⟩]
    exact ⟨rfl, rfl⟩

/-- A program leaves its folio, with or without its completion mark, and uses up its position (R113, R120). -/
theorem position_used (loc : Loc) (p : Prog) (ok : Bool) (s : State) (ht : t = advancePosition loc (putCell loc p ok (clearPort s))) :
    t = { s with mm := { s.mm with
        flash := t.mm.flash, groups := t.mm.groups, hostOpen := t.mm.hostOpen, reclaimOpen := t.mm.reclaimOpen
        port := none } }
      ∧ (∀ l, t.cell l = if l = loc then
          some { metadata := p.metadata, data := p.data, complete := ok, rotten := p.rotten } else s.cell l)
      ∧ (∀ h, h ≠ loc / 64 → t.group h = s.group h)
      ∧ (loc % 64 ≠ 63 ∨ (s.group (loc / 64)).state ≠ .opened →
        t.group (loc / 64) = { s.group (loc / 64) with nextFree := loc % 64 + 1 }
          ∧ t.mm.hostOpen = s.mm.hostOpen ∧ t.mm.reclaimOpen = s.mm.reclaimOpen)
      ∧ (loc % 64 = 63 → (s.group (loc / 64)).state = .opened →
        t.group (loc / 64) = { s.group (loc / 64) with state := .full, nextFree := 64 }
          ∧ t.mm.hostOpen = (if s.mm.hostOpen = some (loc / 64) then none else s.mm.hostOpen)
          ∧ t.mm.reclaimOpen = if s.mm.reclaimOpen = some (loc / 64) then none else s.mm.reclaimOpen) := by
  have hgroup (h : Nat) : (putCell loc p ok (clearPort s)).group h = s.group h := rfl
  obtain ⟨hhost, hreclaim⟩ := roles_advancePosition loc (putCell loc p ok (clearPort s))
  have hgroups := group_advancePosition loc (putCell loc p ok (clearPort s))
  rw [← ht] at hhost hreclaim hgroups
  simp only [hgroup] at hhost hreclaim hgroups
  refine ⟨?_, fun l => ?_, fun h hne => ?_, fun hc => ⟨?_, ?_, ?_⟩, fun hlast hopened => ⟨?_, ?_, ?_⟩⟩
  · rw [ht, advancePosition_frame]
    rfl
  · have hcell : t.cell l = (putCell loc p ok (clearPort s)).cell l := by
      rw [ht, advancePosition_frame]
      rfl
    rw [hcell]
    split
    · next h =>
      rw [h]
      exact cell_putCell_self _ _ _ _
    · next h => exact cell_putCell_ne _ _ _ h
  · rw [hgroups, if_neg hne]
  · rw [hgroups, if_pos rfl, if_neg fun hand => hc.elim (fun h => h hand.1) fun h => h hand.2]
  · rw [hhost, if_neg fun hand => hc.elim (fun h => h hand.1) fun h => h hand.2.1]
    rfl
  · rw [hreclaim, if_neg fun hand => hc.elim (fun h => h hand.1) fun h => h hand.2.1]
    rfl
  · rw [hgroups, if_pos rfl, if_pos ⟨hlast, hopened⟩, hlast]
  · rw [hhost]
    simp only [hlast, hopened, true_and]
    rfl
  · rw [hreclaim]
    simp only [hlast, hopened, true_and]
    rfl

/-! ### Cache updates -/

/-- The slots after the cache update of line `l` (R73, R75). -/
theorem slot_writeClean (l : Fin 32) (f : Nat) (d : FolioData) (s : State) (m : Fin 8) : (writeClean l f d s).slot m =
    { s.slot m with
      flags := if (s.line l).purgeMark = some m then { (s.slot m).flags with purgePartial := true } else (s.slot m).flags
      triples := (s.slot m).triples.filter fun r => !decide (r.line = l ∧ r.folio = f
        ∧ 0 < ((s.line l).version + 1 - r.version).toNat ∧ ((s.line l).version + 1 - r.version).toNat < 2 ^ 31) } := by
  have hslot : (writeClean l f d s).slot m = { (givePartial (s.line l).purgeMark s).slot m with
      triples := ((givePartial (s.line l).purgeMark s).slot m).triples.filter fun t =>
        !(t.line == l && t.folio == f && versionLater ((s.line l).version + 1) t.version) } := slot_mapSlots _ m _
  have hlater : (fun t : Triple => !(t.line == l && t.folio == f && versionLater ((s.line l).version + 1) t.version))
      = fun r => !decide (r.line = l ∧ r.folio = f
        ∧ 0 < ((s.line l).version + 1 - r.version).toNat ∧ ((s.line l).version + 1 - r.version).toNat < 2 ^ 31) := by
    funext r
    congr 1
    rw [Bool.eq_iff_iff]
    unfold versionLater
    simp only [Bool.and_eq_true, beq_iff_eq, decide_eq_true_eq, and_assoc]
    norm_num
  rw [hslot, hlater, slot_givePartial]
  by_cases h : (s.line l).purgeMark = some m
  · simp [h]
  · simp [h]

/-- What a cache update changes. -/
theorem touched_writeClean (l : Fin 32) (f : Nat) (d : FolioData) (s : State) : touch l (writeClean l f d s) = { s with
    csq := { s.csq with slots := (touch l (writeClean l f d s)).csq.slots }
    fc := { s.fc with
      lines := (touch l (writeClean l f d s)).fc.lines, lru := (touch l (writeClean l f d s)).fc.lru
      dirtyList := (touch l (writeClean l f d s)).fc.dirtyList } } := by
  unfold writeClean
  dsimp only
  rw [givePartial_frame]
  rfl

theorem cacheUpdate_line {d : FolioData} (h : s.findLine f = some l ∨ (s.findLine f = none ∧ s.allocLine = some l)) :
    cacheUpdate f d s = touch l (writeClean l f d s) := by
  unfold cacheUpdate
  rcases h with h | ⟨h, hl⟩
  · rw [h]
  · rw [h, hl]

/-! ### The offers of an atomic WRITE -/

/-- What the offers of the positions `locs` leave, from `s` to `t` (R145). -/
structure Offered (start : Nat) (base : Word) (locs : List (Nat × Loc)) (s t : State) : Prop where
  entries : ∀ i loc, (i, loc) ∈ locs → t.mapEntry (start + i) = if s.offerAccepted (start + i) (base + BitVec.ofNat 32 i) = true
    then { state := .mapped, target := some loc, seq := base + BitVec.ofNat 32 i } else s.mapEntry (start + i)
  others : ∀ g, (∀ x ∈ locs, start + x.1 ≠ g) → t.mapEntry g = s.mapEntry g
  frame : t = { s with mm := { s.mm with map := t.mm.map } }

theorem mapEntry_offerData (f g : Nat) (q : Word) (loc : Loc) (s : State) : (offerData f q loc s).mapEntry g =
    if g = f ∧ s.offerAccepted f q = true then { state := .mapped, target := some loc, seq := q } else s.mapEntry g := by
  unfold offerData
  by_cases h : s.offerAccepted f q = true
  · rw [if_pos h, mapEntry_putEntry]
    by_cases hg : g = f
    · rw [if_pos hg, if_pos ⟨hg, h⟩]
    · rw [if_neg hg, if_neg fun hc => hg hc.1]
  · rw [if_neg h, if_neg fun hc => h hc.2]

theorem offered_atomicOffers (start : Nat) (base : Word) (locs : List (Nat × Loc)) (hnodup : (locs.map Prod.fst).Nodup)
    (acc : List Nat) (s : State) : Offered start base locs s (atomicOffers start base locs (acc, s)).2
      ∧ (atomicOffers start base locs (acc, s)).1
        = acc ++ (locs.map Prod.fst).filter fun i => s.offerAccepted (start + i) (base + BitVec.ofNat 32 i) := by
  induction locs generalizing acc s with
  | nil => exact ⟨⟨nofun, fun _ _ => rfl, rfl⟩, (List.append_nil acc).symm⟩
  | cons x locs ih =>
    obtain ⟨i, loc⟩ := x
    obtain ⟨hi, hrest⟩ := List.nodup_cons.1 hnodup
    obtain ⟨v, hv⟩ : ∃ v, v = offerData (start + i) (base + BitVec.ofNat 32 i) loc s := ⟨_, rfl⟩
    obtain ⟨hoff, hacc⟩ := ih hrest
      (if s.offerAccepted (start + i) (base + BitVec.ofNat 32 i) then acc ++ [i] else acc) v
    have hvframe : v = { s with mm := { s.mm with map := v.mm.map } } := by
      rw [hv]
      exact offerData_frame _ _ _ _
    have hother (j : Nat) (hj : j ∈ locs.map Prod.fst) : v.mapEntry (start + j) = s.mapEntry (start + j) := by
      rw [hv, mapEntry_offerData, if_neg]
      rintro ⟨he, -⟩
      exact hi ((Nat.add_left_cancel he) ▸ hj)
    have haccepted (j : Nat) (hj : j ∈ locs.map Prod.fst) (q : Word) :
        v.offerAccepted (start + j) q = s.offerAccepted (start + j) q := by
      unfold State.offerAccepted
      rw [hother j hj]
    have hstep : atomicOffers start base ((i, loc) :: locs) (acc, s) = atomicOffers start base locs
        ((if s.offerAccepted (start + i) (base + BitVec.ofNat 32 i) then acc ++ [i] else acc), v) := by
      rw [hv]
      rfl
    rw [hstep]
    refine ⟨⟨fun j loc' hmem => ?_, fun g hg => ?_, ?_⟩, ?_⟩
    · rcases List.mem_cons.1 hmem with he | hmem
      · cases he
        rw [hoff.others _ fun y hy he => hi ?_, hv, mapEntry_offerData]
        · simp
        · exact List.mem_map.2 ⟨y, hy, Nat.add_left_cancel he⟩
      · have hj : j ∈ locs.map Prod.fst := List.mem_map_of_mem hmem
        rw [hoff.entries j loc' hmem, haccepted j hj, hother j hj]
    · rw [hoff.others g fun y hy => hg y (List.mem_cons_of_mem _ hy), hv, mapEntry_offerData, if_neg]
      rintro ⟨he, -⟩
      exact hg (i, loc) List.mem_cons_self he.symm
    · rw [hoff.frame, hvframe]
    · rw [hacc, List.map_cons, List.filter_cons]
      rw [List.filter_congr fun j hj => haccepted j hj _]
      split
      · rw [List.append_assoc]
        rfl
      · rfl

/-! ### The commit note has landed -/

/-- The positions that an atomic WRITE's offers find accepted (R145). -/
def State.acceptedOf (s : State) (a : Apply) : List Nat := (List.range (s.slot a.slot).desc.count).filter fun i =>
  decide ((s.mapEntry ((s.slot a.slot).desc.folio + i)).seq.toNat < (a.seq0 + BitVec.ofNat 32 i).toNat)

/-- What the commit note leaves before the WRITE ends: its offers with map `map`, its record, and the apply (R145 step 3). -/
def State.commitNoted (s : State) (a : Apply) (loc : Loc) (p : Prog) (map : FolioMap) : State :=
  setApply (some { a with step := a.step + 1, wait := .between, accepted := s.acceptedOf a, pendingLocs := [] })
    (setSlot a.slot { s.slot a.slot with detail := p.metadata.seq } { s with mm := { s.mm with
      map := map
      commitNotes := s.mm.commitNotes ++ [{ start := (s.slot a.slot).desc.folio, count := (s.slot a.slot).desc.count
                                            base := a.seq0, seq := p.metadata.seq, loc := loc }] } })

theorem commitLanded_eq (a : Apply) (loc : Loc) (p : Prog) (s : State) (hlen : a.pendingLocs.length = (s.slot a.slot).desc.count) :
    ∃ t, Offered (s.slot a.slot).desc.folio a.seq0 ((List.range a.pendingLocs.length).zip a.pendingLocs) s t
      ∧ commitLanded a loc p s = if s.acceptedOf a = [] then
          completeSlot a.slot .ok (s.slot a.slot).desc.count (settleSlots (s.commitNoted a loc p t.mm.map))
        else s.commitNoted a loc p t.mm.map := by
  have hmap : ((List.range a.pendingLocs.length).zip a.pendingLocs).map Prod.fst = List.range (s.slot a.slot).desc.count := by
    rw [List.map_fst_zip (by rw [List.length_range]), hlen]
  obtain ⟨hoff, hacc⟩ := offered_atomicOffers (s.slot a.slot).desc.folio a.seq0
    ((List.range a.pendingLocs.length).zip a.pendingLocs) (by rw [hmap]; exact List.nodup_range) [] s
  rw [hmap, List.nil_append] at hacc
  have haccepted : (atomicOffers (s.slot a.slot).desc.folio a.seq0
      ((List.range a.pendingLocs.length).zip a.pendingLocs) ([], s)).1 = s.acceptedOf a := hacc
  refine ⟨_, hoff, ?_⟩
  obtain ⟨r, hr⟩ : ∃ r, r = atomicOffers (s.slot a.slot).desc.folio a.seq0
      ((List.range a.pendingLocs.length).zip a.pendingLocs) ([], s) := ⟨_, rfl⟩
  rw [← hr] at hoff haccepted ⊢
  unfold commitLanded
  dsimp only
  rw [← hr, haccepted]
  have hnoted : setApply (some { a with step := a.step + 1, wait := .between, accepted := s.acceptedOf a, pendingLocs := [] })
      (modSlot a.slot (fun sl => { sl with detail := p.metadata.seq }) { r.2 with mm := { r.2.mm with
        commitNotes := r.2.mm.commitNotes ++ [{ start := (s.slot a.slot).desc.folio, count := (s.slot a.slot).desc.count
                                                base := a.seq0, seq := p.metadata.seq, loc := loc }] } })
      = s.commitNoted a loc p r.2.mm.map := by
    rw [hoff.frame]
    rfl
  rw [hnoted]
  by_cases hempty : s.acceptedOf a = []
  · rw [if_pos hempty, hempty]
    refine (if_pos rfl).trans (finishCount_eq ?_)
    have hslot : (s.commitNoted a loc p r.2.mm.map).slot a.slot = { s.slot a.slot with detail := p.metadata.seq } :=
      slot_setSlot_self _ _ _
    rw [hslot]
  · rw [if_neg hempty, if_neg (by simpa using hempty)]

theorem mm_finish (n : Fin 8) (k : Nat) (s : State) : (completeSlot n .ok k (settleSlots s)).mm = s.mm := by
  have hframe := settleSlots_frame s
  rw [SettleFrame] at hframe
  rw [completeSlot_frame, hframe]

/-! ### The statement -/

theorem exec_programComplete (h : s.PortRuns q (.program loc p)) : exec .mediaProgramComplete s = .next (endUnit
    (if q = .apply then applyLanded loc p (landProgram loc p s) else if q = .orphan then tearProgram loc p s else s)) := by
  obtain ⟨hrest, ticks, hport⟩ := h
  change Host.Outcome.next (endUnit (programComplete (caughtUp s))) = _
  rw [caughtUp_atRest hrest]
  unfold programComplete
  rw [hport]

/-- The offer of a write-through folio, and its cache update if it is accepted (R67). -/
theorem throughLanded_eq (a : Apply) (loc : Loc) (p : Prog) (s : State) : throughLanded a loc p s =
    advanceWrite a (modSlot a.slot (fun sl => { sl with detail := p.metadata.seq })
      (if (s.mapEntry p.metadata.start).seq.toNat < p.metadata.seq.toNat then
        cacheUpdate p.metadata.start p.data
          (putEntry p.metadata.start { state := .mapped, target := some loc, seq := p.metadata.seq } s)
      else s)) := by
  have hiff : s.offerAccepted p.metadata.start p.metadata.seq = true
      ↔ (s.mapEntry p.metadata.start).seq.toNat < p.metadata.seq.toNat := by
    unfold State.offerAccepted
    exact decide_eq_true_iff
  unfold throughLanded offerData
  dsimp only
  by_cases h : (s.mapEntry p.metadata.start).seq.toNat < p.metadata.seq.toNat
  · rw [if_pos (hiff.2 h), if_pos (hiff.2 h), if_pos h]
  · rw [if_neg (mt hiff.1 h), if_neg (mt hiff.1 h), if_neg h]

theorem applyLanded_through (ha : s.csq.apply = some a) (hk : a.kind = .writeThrough) :
    applyLanded loc p s = throughLanded a loc p s := by
  unfold applyLanded
  rw [ha]
  dsimp only
  rw [hk]

theorem applyLanded_atomic (ha : s.csq.apply = some a) (hk : a.kind = .writeAtomic) :
    applyLanded loc p s = atomicLanded a loc p s := by
  unfold applyLanded
  rw [ha]
  dsimp only
  rw [hk]

theorem applyLanded_note (ha : s.csq.apply = some a) (hk : a.kind = .trim ∨ a.kind = .eraseAll) :
    applyLanded loc p s = nextStep { a with noteLoc := some loc } s := by
  unfold applyLanded
  rw [ha]
  dsimp only
  rcases hk with hk | hk
  · rw [hk]
  · rw [hk]

/-- Settles O54. -/
theorem programLandsForItsStep : Obligations.ProgramLandsForItsStep := by
  unfold Obligations.ProgramLandsForItsStep
  refine ⟨fun s loc p => ⟨fun a h ha => ?_, fun h => ?_⟩, fun s loc p => position_used loc p true s rfl,
    fun s f data => ⟨fun hnone hfull => ?_, fun l hl => ?_⟩, fun s a loc p => ?_⟩
  · have hcsq : (landProgram loc p s).csq = s.csq := landProgram_csq loc p s
    have hmap (f : Nat) : (landProgram loc p s).mapEntry f = s.mapEntry f := by
      unfold State.mapEntry
      rw [landProgram_frame]
    have hcount : (landProgram loc p s).applyCount a = (s.slot a.slot).desc.count := by
      unfold State.applyCount State.slot
      rw [hcsq]
    have happly : (landProgram loc p s).csq.apply = some a := by rw [hcsq, ha]
    rw [exec_programComplete h, if_pos rfl]
    refine ⟨fun hk hacc => ?_, fun hk hno => ?_, fun hk => ?_, fun hk hlt => ?_, fun hk hle => ?_⟩
    · rw [applyLanded_through happly hk, throughLanded_eq, hmap, if_pos hacc]
    · rw [applyLanded_through happly hk, throughLanded_eq, hmap, if_neg hno]
    · rw [applyLanded_note happly hk]
      rfl
    · rw [applyLanded_atomic happly hk]
      unfold atomicLanded
      rw [if_pos (by rw [hcount]; exact hlt)]
      rfl
    · rw [applyLanded_atomic happly hk]
      unfold atomicLanded
      rw [if_neg (by rw [hcount]; exact not_lt.2 hle)]
  · rw [exec_programComplete h, if_neg (by decide), if_pos rfl]
  · unfold cacheUpdate
    rw [hnone, hfull]
  · rw [cacheUpdate_line hl]
    refine ⟨?_, fun m hm => ?_, dirtyList_writeClean l f data s, ?_, fun m => slot_writeClean l f data s m, touched_writeClean l f data s⟩
    · exact (line_writeClean l f data s l).trans (if_pos rfl)
    · exact (line_writeClean l f data s m).trans (if_neg hm)
    · change (givePartial (s.line l).purgeMark s).fc.lru.erase l ++ [l] = _
      rw [givePartial_frame]
  · dsimp only
    intro hlen
    obtain ⟨t, hoff, ht⟩ := commitLanded_eq a loc p s hlen
    have hmm : (commitLanded a loc p s).mm.map = t.mm.map := by
      rw [ht]
      split
      · rw [mm_finish]
        rfl
      · rfl
    have hentry (f : Nat) : (commitLanded a loc p s).mapEntry f = t.mapEntry f := by
      unfold State.mapEntry
      rw [hmm]
    refine ⟨fun i l hl => ?_, fun f hf => ?_, fun hne => ?_, fun he => ?_⟩
    · obtain ⟨hi, hget⟩ := List.getElem?_eq_some_iff.1 hl
      have hmem : (i, l) ∈ (List.range a.pendingLocs.length).zip a.pendingLocs :=
        List.mem_iff_getElem.2 ⟨i, by simpa using hi, by simp [hget]⟩
      rw [hentry, hoff.entries i l hmem]
      refine if_congr ?_ rfl rfl
      rw [List.mem_filter, List.mem_range]
      unfold State.offerAccepted
      exact (and_iff_right (hlen ▸ hi)).symm
    · rw [hentry]
      refine hoff.others f fun x hx he => ?_
      have hlt := List.mem_range.1 (List.of_mem_zip (a := x.1) (b := x.2) hx).1
      omega
    · rw [hmm, ht]
      exact if_neg hne
    · rw [hmm, ht]
      exact if_pos he

end Sys2Proof.Machine
end

section
/-! Failed and stalled operations: groups, thresholds and F3 (O55). -/

namespace Sys2Proof.Machine

variable {s t u : State} {n m : Fin 8} {a : Apply} {l k : Fin 32} {f g : Nat} {loc : Loc} {p : Prog} {q : Requester} {o : Origin}

/-! ### Programs that fail -/

/-- The groups after a program has failed: its group is RETIRING, with its position used up (R129). -/
theorem failProgram_eq (o : Origin) (loc : Loc) (p : Prog) (s : State) : failProgram o loc p s = reserveFell (setEvent .media
    (vacateRole (loc / 64) (putGroup (loc / 64) { s.group (loc / 64) with
        state := .retiring, origin := some o, nextFree := loc % 64 + 1 }
      (putGroup (loc / 64) { s.group (loc / 64) with nextFree := loc % 64 + 1 } (putCell loc p false (clearPort s)))))) := by
  unfold failProgram retiringGroup
  dsimp only
  have hgroup : (putGroup (groupOf loc) { (putCell loc p false (clearPort s)).group (groupOf loc) with
      nextFree := loc % Config.groupFolios + 1 } (putCell loc p false (clearPort s))).group (groupOf loc)
      = { s.group (groupOf loc) with nextFree := loc % Config.groupFolios + 1 } := by
    rw [group_putGroup, if_pos rfl]
    rfl
  rw [hgroup]
  rfl

theorem group_vacateRole (g h : Nat) (s : State) : (vacateRole g s).group h = s.group h := rfl

/-- The thresholds leave the groups alone. -/
theorem reserve_reserveFell (s : State) : (reserveFell s).reserve = s.reserve := by
  unfold State.reserve State.groupsIn
  rw [reserveFell_frame]

/-- The thresholds after the reserve has fallen, MEDIA pending (R133, R134). -/
theorem reserveFell_media (s : State) : reserveFell (setEvent .media s) = { s with
    mm := { s.mm with readOnly := s.mm.readOnly || decide (s.reserve ≤ 4) }
    ntc := { s.ntc with evPending := s.ntc.evPending ||| 16 ||| (if s.reserve ≤ 24 then 32 else 0)
      ||| if s.reserve ≤ 4 ∧ s.mm.readOnly = false then 64 else 0 } } := reserveFell_spec (setEvent .media s)

/-- What a failed program leaves (R129, R133, R134). -/
theorem failProgram_spec (o : Origin) (loc : Loc) (p : Prog) (s : State) (ht : t = failProgram o loc p s) :
    t = { s with
        mm := { s.mm with
          port := none, flash := t.mm.flash, groups := t.mm.groups
          hostOpen := if s.mm.hostOpen = some (loc / 64) then none else s.mm.hostOpen
          reclaimOpen := if s.mm.reclaimOpen = some (loc / 64) then none else s.mm.reclaimOpen
          readOnly := s.mm.readOnly || decide (t.reserve ≤ 4) }
        ntc := { s.ntc with evPending := s.ntc.evPending ||| 16 ||| (if t.reserve ≤ 24 then 32 else 0)
          ||| if t.reserve ≤ 4 ∧ s.mm.readOnly = false then 64 else 0 } }
      ∧ (∀ l, t.cell l = if l = loc then
          some { metadata := p.metadata, data := p.data, complete := false, rotten := p.rotten } else s.cell l)
      ∧ t.group (loc / 64) = { s.group (loc / 64) with state := .retiring, origin := some o, nextFree := loc % 64 + 1 }
      ∧ ∀ h, h ≠ loc / 64 → t.group h = s.group h := by
  obtain ⟨w, hw⟩ : ∃ w, w = vacateRole (loc / 64) (putGroup (loc / 64) { s.group (loc / 64) with
        state := .retiring, origin := some o, nextFree := loc % 64 + 1 }
      (putGroup (loc / 64) { s.group (loc / 64) with nextFree := loc % 64 + 1 } (putCell loc p false (clearPort s)))) := ⟨_, rfl⟩
  have heq : t = reserveFell (setEvent .media w) := by rw [ht, failProgram_eq, hw]
  have hreserve : t.reserve = w.reserve := by rw [heq, reserve_reserveFell]; rfl
  have hspec := reserveFell_spec (setEvent .media w)
  have hstores : t.mm.flash = w.mm.flash ∧ t.mm.groups = w.mm.groups := by
    rw [heq, hspec]
    exact ⟨rfl, rfl⟩
  have hgroup (h : Nat) : t.group h = w.group h := by unfold State.group; rw [hstores.2]
  refine ⟨?_, fun l => ?_, ?_, fun h hne => ?_⟩
  · have hframe : w = { s with mm := { s.mm with
        port := none, flash := w.mm.flash, groups := w.mm.groups
        hostOpen := if s.mm.hostOpen = some (loc / 64) then none else s.mm.hostOpen
        reclaimOpen := if s.mm.reclaimOpen = some (loc / 64) then none else s.mm.reclaimOpen } } := by rw [hw]; rfl
    have hfell : t = _ := heq.trans (reserveFell_media w)
    rw [← hreserve] at hfell
    generalize t.reserve = r at hfell ⊢
    rw [hstores.1, hstores.2, hfell]
    generalize w.mm.flash = x at hframe ⊢
    generalize w.mm.groups = y at hframe ⊢
    rw [hframe]
  · have hcell : t.cell l = (putCell loc p false (clearPort s)).cell l := by
      unfold State.cell
      rw [hstores.1, hw]
      rfl
    rw [hcell]
    split
    · next h => rw [h]; exact cell_putCell_self _ _ _ _
    · next h => exact cell_putCell_ne _ _ _ h
  · rw [hgroup, hw, group_vacateRole, group_putGroup, if_pos rfl]
  · rw [hgroup, hw, group_vacateRole, group_putGroup, if_neg hne, group_putGroup, if_neg hne]
    rfl

theorem addDefect_eq (g : Nat) (o : Origin) (s : State) : addDefect g o s = { s with mm := { s.mm with
    defects := if s.mm.defects.length < 256 then s.mm.defects ++ [{ group := g, origin := o }] else s.mm.defects } } := by
  have hcap : Config.defectCapacity = 256 := rfl
  unfold addDefect
  rw [hcap]
  split
  · rfl
  · rfl

/-- What a failed erase leaves (R130, R132, R133). -/
theorem failErase_spec (g : Nat) (o : Origin) (s : State) (ht : t = failErase g o s) :
    t = { s with
        mm := { s.mm with
          port := none, groups := t.mm.groups, victim := none
          defects := if s.mm.defects.length < 256 then s.mm.defects ++ [{ group := g, origin := o }] else s.mm.defects
          relocQueue := s.mm.relocQueue.filter fun l => l / 64 != g
          readOnly := s.mm.readOnly || decide (t.reserve ≤ 4) }
        ntc := { s.ntc with evPending := s.ntc.evPending ||| 16 ||| (if t.reserve ≤ 24 then 32 else 0)
          ||| if t.reserve ≤ 4 ∧ s.mm.readOnly = false then 64 else 0 } }
      ∧ t.group g = { s.group g with state := .retired, origin := some o, erasing := false }
      ∧ ∀ h, h ≠ g → t.group h = s.group h := by
  obtain ⟨w, hw⟩ : ∃ w, w = endVictim g (addDefect g o
      (putGroup g { s.group g with state := .retired, origin := some o, erasing := false } (clearPort s))) := ⟨_, rfl⟩
  have hfell : t = _ := (ht.trans (by rw [hw]; rfl)).trans (reserveFell_media w)
  have hgroups : t.mm.groups = w.mm.groups := by rw [hfell]
  have hreserve : t.reserve = w.reserve := by
    unfold State.reserve State.groupsIn
    rw [hgroups]
  rw [addDefect_eq] at hw
  have hgroup (h : Nat) : t.group h = if h = g then { s.group g with state := .retired, origin := some o, erasing := false }
      else s.group h := by
    have hstores : t.mm.groups
        = (putGroup g { s.group g with state := .retired, origin := some o, erasing := false } s).mm.groups := by
      rw [hgroups, hw]
      rfl
    rw [← group_putGroup]
    exact congrArg (fun x => (sparseGet h x).getD Group.fresh) hstores
  refine ⟨?_, (hgroup g).trans (if_pos rfl), fun h hne => (hgroup h).trans (if_neg hne)⟩
  have hframe : w = { s with mm := { s.mm with
      port := none, groups := w.mm.groups, victim := none
      defects := if s.mm.defects.length < 256 then s.mm.defects ++ [{ group := g, origin := o }] else s.mm.defects
      relocQueue := s.mm.relocQueue.filter fun l => l / 64 != g } } := by
    rw [hw]
    rfl
  rw [← hreserve] at hfell
  generalize t.reserve = r at hfell ⊢
  rw [hgroups, hfell]
  generalize w.mm.groups = y at hframe ⊢
  rw [hframe]

/-! ### The events of a treatment -/

namespace Raised

theorem weaken {m m' : BitVec 9} (h : Raised m s t) (hm : m &&& ~~~m' = 0) : Raised m' s t := by
  obtain ⟨x, hx, hxm⟩ := h
  refine ⟨x, hx, ?_⟩
  ext i hi
  have hbit : (x &&& ~~~m)[i] = false := by rw [hxm]; simp
  have hsub : (m &&& ~~~m')[i] = false := by rw [hm]; simp
  simp only [BitVec.getElem_and, BitVec.getElem_not] at hbit hsub ⊢
  revert hbit hsub
  cases x[i] <;> cases m[i] <;> simp

/-- What does not raise MEDIA, SPARE and RDONLY of its own has no event of the treatment. -/
theorem no_treatment (h : Raised 0x18F s t) (hs : s.ntc.evPending = 0) : t.ntc.evPending &&& treatmentEvents = 0 := by
  obtain ⟨x, hx, hxm⟩ := h
  rw [hx, hs, show (0 : BitVec 9) ||| x = x from BitVec.zero_or]
  exact hxm

end Raised

theorem raised_port {m : BitVec 9} (hm : portEvents &&& ~~~m = 0) (n : Fin 8) (st : Status) (k : Nat) (s : State) :
    Raised m s (finishApply n st k s) :=
  ((raised_settleSlots s).trans (raised_completeSlot n st k _)).weaken hm

theorem raised_breakWhere (r : Rsv → Bool) (c : BreakCause) (s : State) : Raised 0x18F s (breakWhere r c s) := by
  unfold breakWhere
  split
  · exact .of_eq rfl
  · exact ⟨BitVec.twoPow 9 2, rfl, by decide⟩

theorem raised_createRsv (r : Rsv) (s : State) : Raised 0x18F s (createRsv r s) := by
  unfold createRsv
  dsimp only
  split
  · exact .of_eq rfl
  · split
    · exact .of_eq rfl
    · split
      · exact .of_eq rfl
      · exact ⟨BitVec.twoPow 9 2, rfl, by decide⟩

theorem raised_poisonTarget (loc : Loc) (s : State) : Raised 0x18F s (poisonTarget loc s) := by
  unfold poisonTarget
  split
  · dsimp only
    split
    · unfold poisonFolio
      dsimp only
      split
      · exact .of_eq rfl
      · exact raised_breakWhere _ _ (putEntry _ _ s)
    · exact .of_eq rfl
  · exact .of_eq rfl

theorem raised_endPlacing (n : Fin 8) (s : State) : Raised 0x18F s (endPlacing n s) := by
  by_cases hw : s.wordsOf n = []
  · rw [endPlacing_empty hw]
    exact raised_port (by decide) n _ 0 s
  · by_cases hr : (s.slot n).desc.cmd = .read ∧ (s.slot n).desc.rsv = true
    · rw [endPlacing_reserves hw hr.1 hr.2]
      exact raised_createRsv _ (setApply none s)
    · rw [endPlacing_placed hw (by
        rw [← Bool.not_eq_true]
        exact not_and_or.1 hr)]
      exact .of_eq rfl

theorem raised_applyReadBad (a : Apply) (r : MediaReq) (s : State) : Raised 0x18F s (applyReadBad a r s) := by
  have hbad (f : Nat) (v : State) : Raised 0x18F v (readUnreadable a f v) :=
    raised_endPlacing a.slot (modSlot a.slot (fun sl => { sl with status := .unreadable, detail := BitVec.ofNat 32 f }) v)
  unfold applyReadBad
  split
  · next l f =>
    dsimp only
    split
    · unfold advancePrefetch
      split
      · exact .of_eq rfl
      · exact raised_port (by decide) a.slot _ _ (invalidate l s)
    · exact hbad f (invalidate l s)
  · exact hbad _ s
  · exact .of_eq rfl

/-- A read that is uncorrectable raises none of the treatment's own events. -/
theorem raised_readResult (q : Requester) (loc : Loc) (s : State) : Raised 0x18F s (readResult q loc .uncorrectable s) := by
  have hres : s.resultAt loc .uncorrectable = .uncorrectable := resultAt_eq fun _ _ _ => rfl
  have hpoison : Raised 0x18F s (poisonTarget loc (s.readCounted .uncorrectable)) :=
    raised_poisonTarget loc (s.readCounted .uncorrectable)
  cases q with
  | orphan =>
    rw [readResult_orphan hres, if_pos rfl]
    exact hpoison
  | relocation =>
    rw [readResult_relocation hres, if_pos rfl]
    exact hpoison
  | apply =>
    unfold readResult
    rw [hres]
    change Raised 0x18F s (applyRead loc .uncorrectable (s.readCounted .uncorrectable))
    unfold applyRead
    split
    · exact .of_eq rfl
    · split
      · exact hpoison.trans (raised_applyReadBad _ _ _)
      all_goals exact .of_eq rfl
  | reclaim =>
    unfold readResult
    rw [hres]
    change Raised 0x18F s (reclaimRead loc .uncorrectable (s.readCounted .uncorrectable))
    unfold reclaimRead
    dsimp only
    split
    · exact hpoison
    · exact hpoison
  | wbe =>
    unfold readResult
    rw [hres]
    exact .of_eq rfl
  | mount =>
    unfold readResult
    rw [hres]
    exact .of_eq rfl

/-! ### A stalled operation -/

/-- F3 after the treatment `u` of an abandoned operation, and after a collision the events `raised` of that treatment (R131,
R163, R164). -/
def State.stalled (raised : BitVec 9) (u : State) : State :=
  let v := raiseHard .f3 { u with mount := u.mount.map fun m => { m with raisedF3 := true } }
  if u.ntc.outstanding .f4 = true then { v with ntc := { v.ntc with evPending := v.ntc.evPending ||| raised } } else v

theorem tickStall_runs {op : PortOp} (hport : s.mm.port = some op) (h : op.ticks < 400) :
    tickStall s = { s with mm := { s.mm with port := some { op with ticks := op.ticks + 1 } } } := by
  have hlimit : Config.stallLimit = 400 := rfl
  unfold tickStall
  rw [hport]
  exact if_neg (by omega)

theorem tickStall_stalls {op : PortOp} (hport : s.mm.port = some op) (h : 400 ≤ op.ticks) :
    tickStall s = State.stalled (s.abandonEvents op) (abandon op s) := by
  have hlimit : Config.stallLimit = 400 := rfl
  have hstall : tickStall s = stallOp op s := by
    unfold tickStall
    rw [hport]
    exact if_pos (by omega)
  rw [hstall, stallOp_eq]
  rfl

/-- The state of which only the pending events are forgotten. -/
def State.quieted (s : State) : State := { s with ntc := { s.ntc with evPending := 0 } }

/-- The events of a group that leaves good use, in the treatment of an abandoned operation. -/
theorem treatment_lost (a b : Prop) [Decidable a] [Decidable b] :
    ((0 : BitVec 9) ||| 16 ||| (if a then 32 else 0) ||| if b then 64 else 0) &&& treatmentEvents
      = 16 ||| (if a then 32 else 0) ||| if b then 64 else 0 := by
  split
  · split
    · rfl
    · rfl
  · split
    · rfl
    · rfl

theorem holdRetry_ntc (q : Requester) (s : State) : (holdRetry q s).ntc = s.ntc := by
  unfold holdRetry
  split
  · split
    · rfl
    · rfl
  · rfl

theorem reserve_failProgram_quieted (o : Origin) (loc : Loc) (p : Prog) (s : State) :
    (failProgram o loc p s.quieted).reserve = (failProgram o loc p s).reserve := by
  rw [failProgram_eq, failProgram_eq, reserve_reserveFell, reserve_reserveFell]
  rfl

theorem reserve_failErase_quieted (g : Nat) (o : Origin) (s : State) : (failErase g o s.quieted).reserve = (failErase g o s).reserve := by
  have hdefect (x : State) : (addDefect g o x).reserve = x.reserve := by
    rw [addDefect_frame]
    rfl
  have hreserve (x : State) : (failErase g o x).reserve
      = (putGroup g { x.group g with state := .retired, origin := some o, erasing := false } x).reserve :=
    (reserve_reserveFell _).trans (hdefect (putGroup g { x.group g with state := .retired, origin := some o, erasing := false }
      (clearPort x)))
  rw [hreserve, hreserve]
  rfl

theorem abandon_program {op : PortOp} (hop : op.op = .program loc p) (s : State) :
    abandon op s = holdRetry op.req (programLost .stall op.req loc p s) := by
  unfold abandon
  rw [hop]

theorem holdRetry_other (hq : q ≠ .apply) (s : State) : holdRetry q s = s := by
  unfold holdRetry
  split
  · exact if_neg hq
  · rfl

theorem abandon_erase {op : PortOp} (hop : op.op = .erase g) (s : State) :
    abandon op s = if op.req = .mount then reerased g (some .stall) s else failErase g .stall s := by
  unfold abandon
  rw [hop]

theorem abandon_read {op : PortOp} (hop : op.op = .read loc) (s : State) : abandon op s =
    if op.req = .mount then nextPosition loc (classify loc .metadataError (clearPort s))
    else readResult op.req loc .uncorrectable s := by
  unfold abandon
  rw [hop]

theorem abandonEvents_eq (op : PortOp) (s : State) :
    s.abandonEvents op = (abandon op s.quieted).ntc.evPending &&& treatmentEvents := rfl

/-- The events of the treatment of a program (R131). -/
theorem abandonEvents_program {op : PortOp} (hop : op.op = .program loc p) (hq : op.req ≠ .orphan) :
    s.abandonEvents op = 16 ||| (if (failProgram .stall loc p s).reserve ≤ 24 then 32 else 0)
      ||| if (failProgram .stall loc p s).reserve ≤ 4 ∧ s.mm.readOnly = false then 64 else 0 := by
  obtain ⟨hspec, -⟩ := failProgram_spec .stall loc p s.quieted rfl
  have hev := congrArg (fun x => x.ntc.evPending) hspec
  rw [reserve_failProgram_quieted] at hev
  rw [abandonEvents_eq, abandon_program hop, holdRetry_ntc, (programLost_eq .stall op.req loc p _).2 hq, hev]
  exact treatment_lost _ _

theorem abandonEvents_torn {op : PortOp} (hop : op.op = .program loc p) (hq : op.req = .orphan) : s.abandonEvents op = 0 := by
  rw [abandonEvents_eq, abandon_program hop, holdRetry_ntc, (programLost_eq .stall op.req loc p _).1 hq, tearProgram_frame]
  change (0 : BitVec 9) &&& treatmentEvents = 0
  decide

theorem abandonEvents_erase {op : PortOp} (hop : op.op = .erase g) (hq : op.req ≠ .mount) :
    s.abandonEvents op = 16 ||| (if (failErase g .stall s).reserve ≤ 24 then 32 else 0)
      ||| if (failErase g .stall s).reserve ≤ 4 ∧ s.mm.readOnly = false then 64 else 0 := by
  obtain ⟨hspec, -⟩ := failErase_spec g .stall s.quieted rfl
  have hev := congrArg (fun x => x.ntc.evPending) hspec
  rw [reserve_failErase_quieted] at hev
  rw [abandonEvents_eq, abandon_erase hop, if_neg hq, hev]
  exact treatment_lost _ _

theorem mountGroup_ntc (g : Nat) (s : State) : (mountGroup g s).ntc = s.ntc := by
  unfold mountGroup
  dsimp only
  split
  · split
    · rfl
    · rfl
  · rfl

theorem abandonEvents_reerase {op : PortOp} (hop : op.op = .erase g) (hq : op.req = .mount) : s.abandonEvents op = 16 := by
  rw [abandonEvents_eq, abandon_erase hop, if_pos hq]
  unfold reerased
  dsimp only
  rw [mountGroup_ntc]
  unfold retireGroup
  rw [addDefect_frame]
  change ((0 : BitVec 9) ||| BitVec.twoPow 9 4) &&& treatmentEvents = 16
  decide

theorem abandonEvents_read {op : PortOp} (hop : op.op = .read loc) (hq : op.req ≠ .mount) : s.abandonEvents op = 0 := by
  rw [abandonEvents_eq, abandon_read hop, if_neg hq]
  exact (raised_readResult op.req loc s.quieted).no_treatment rfl

theorem nextPosition_ntc (loc : Loc) (s : State) : (nextPosition loc s).ntc = s.ntc := by
  unfold nextPosition
  split
  · rfl
  · unfold endGroup
    dsimp only
    rw [mountGroup_ntc]
    split
    · rfl
    · rfl

theorem abandonEvents_scan {op : PortOp} (hop : op.op = .read loc) (hq : op.req = .mount) : s.abandonEvents op = 0 := by
  rw [abandonEvents_eq, abandon_read hop, if_pos hq, nextPosition_ntc]
  change (0 : BitVec 9) &&& treatmentEvents = 0
  decide

/-! ### The statement -/

theorem exec_programFail (h : s.PortRuns q (.program loc p)) :
    exec .programFail s = .next (endUnit (programLost .programFail q loc p s)) := by
  obtain ⟨hrest, ticks, hport⟩ := h
  change Host.Outcome.next (endUnit (programFailed (caughtUp s))) = _
  rw [caughtUp_atRest hrest]
  unfold programFailed
  rw [hport]

/-- Settles O55. -/
theorem failuresRetireTheirGroups : Obligations.FailuresRetireTheirGroups := by
  unfold Obligations.FailuresRetireTheirGroups
  refine ⟨fun s q loc p h => ⟨fun hq => ?_, fun hq => ?_⟩, fun s o loc p => failProgram_spec o loc p s rfl,
    fun s g o => failErase_spec g o s rfl, fun s loc p => position_used loc p false s rfl,
    fun s b0 b1 op hrest htick hport hlimit => ?_, fun s op hport => ⟨tickStall_runs hport, fun hlimit => ?_⟩⟩
  · rw [exec_programFail h, (programLost_eq _ q loc p s).2 hq]
  · rw [exec_programFail h, (programLost_eq _ q loc p s).1 hq]
  · change Host.Outcome.next (endUnit (tickWhen State.stallsNow b0 b1 (caughtUp s))) = _
    rw [caughtUp_atRest hrest]
    have hnow : s.stallsNow = true := by
      unfold State.stallsNow
      rw [hport]
      exact decide_eq_true (Nat.lt_succ_of_le hlimit)
    unfold tickWhen
    rw [htick, hnow]
    rfl
  · rw [tickStall_stalls hport hlimit]
    refine ⟨fun loc p hop => ⟨fun ha ho => ?_, fun ho => ?_, fun a hq ha => ?_⟩, fun g hop => ⟨fun hq => ?_, fun hq => ?_⟩,
      fun loc hop => ⟨fun hq => ?_, fun hq => ?_⟩⟩
    · rw [abandonEvents_program hop ho, abandon_program hop, holdRetry_other ha, (programLost_eq _ _ loc p s).2 ho]
      rfl
    · rw [abandonEvents_torn hop ho, abandon_program hop, holdRetry_other (by rw [ho]; decide), (programLost_eq _ _ loc p s).1 ho]
      rfl
    · have ho : op.req ≠ .orphan := by rw [hq]; decide
      have hheld : holdRetry op.req (failProgram .stall loc p s)
          = setApply (some { a with heldRetry := true }) (failProgram .stall loc p s) := by
        have happly : (failProgram .stall loc p s).csq.apply = some a := by
          rw [failProgram_frame]
          exact ha
        unfold holdRetry
        rw [happly]
        exact if_pos hq
      rw [abandonEvents_program hop ho, abandon_program hop, (programLost_eq _ _ loc p s).2 ho, hheld]
      rfl
    · rw [abandonEvents_erase hop hq, abandon_erase hop, if_neg hq]
      rfl
    · rw [abandonEvents_reerase hop hq, abandon_erase hop, if_pos hq]
      rfl
    · rw [abandonEvents_read hop hq, abandon_read hop, if_neg hq]
      rfl
    · rw [abandonEvents_scan hop hq, abandon_read hop, if_pos hq]
      rfl

end Sys2Proof.Machine
end

section
/-! The Writeback Engine: its triggers, the capture of a ticket and its settlement (O56). -/

namespace Sys2Proof.Machine

variable {s t u : State} {n m : Fin 8} {l j : Fin 32} {f g : Nat} {loc : Loc} {p : Prog} {k : Ticket}

/-! ### The triggers -/

theorem settlingWork_iff (s : State) : s.settlingWork = true ↔
    ∃ n, (s.slot n).state = .settling ∧ (s.slot n).desc.cmd ∈ [Cmd.clean, .flush, .purge] := by
  have hslot : ∀ sl : Slot, (sl.state == .settling && (sl.desc.cmd == .clean || sl.desc.cmd == .flush || sl.desc.cmd == .purge))
      = true ↔ sl.state = .settling ∧ sl.desc.cmd ∈ [Cmd.clean, .flush, .purge] := fun sl => by simp [or_assoc]
  unfold State.settlingWork
  rw [List.any_eq_true]
  constructor
  · rintro ⟨x, hx, h⟩
    obtain ⟨i, hi, rfl⟩ := List.mem_iff_getElem.1 hx
    have hlen : i < 8 := by simpa using hi
    exact ⟨⟨i, hlen⟩, by simpa [State.slot] using (hslot _).1 h⟩
  · rintro ⟨n, h⟩
    exact ⟨s.slot n, by simp [State.slot], (hslot _).2 h⟩

theorem applyDrains_iff (s : State) : s.applyDrains = true ↔
    ∃ a, s.csq.apply = some a ∧ (a.kind = .sleep ∨ a.wait = .forLine) := by
  unfold State.applyDrains
  cases s.csq.apply with
  | none => simp
  | some a => simp

/-- The triggers of R90. -/
theorem wbeRuns_iff (s : State) : s.wbeRuns = true ↔ s.fc.draining = true ∨ s.pwr.intent = true
    ∨ (∃ n, (s.slot n).state = .settling ∧ (s.slot n).desc.cmd ∈ [Cmd.clean, .flush, .purge])
    ∨ ∃ a, s.csq.apply = some a ∧ (a.kind = .sleep ∨ a.wait = .forLine) := by
  rw [← settlingWork_iff, ← applyDrains_iff]
  unfold State.wbeRuns
  simp only [Bool.or_eq_true]
  tauto

theorem wbeMayCapture_iff (s : State) : s.wbeMayCapture = true ↔ s.wbeRuns = true ∧ s.fc.ticket = none ∧ s.frozen = false
    ∧ s.mount = none ∧ (s.pwr.state = .active ∨ s.pwr.state = .idle) := by
  unfold State.wbeMayCapture State.awake
  simp [and_assoc]

/-! ### The capture -/

theorem exec_wbeCapture (h : s.AtRest) (bad : Bool) : exec (.wbeCapture bad) s = .next (endUnit (wbeCaptureOp bad s)) := by
  change Host.Outcome.next (endUnit (wbeCaptureOp bad (caughtUp s))) = _
  rw [caughtUp_atRest h]

/-- The captured line leaves the head of the dirty list and stays DIRTY (R91). -/
theorem capture_head (rest : List (Fin 32)) (h : s.fc.dirtyList = l :: rest) : capture l s = { s with
    fc := { s.fc with
      lines := s.fc.lines.set l.val { s.line l with voidTicket := false } l.isLt
      dirtyList := rest
      ticket := some { line := l, folio := (s.line l).folio, version := (s.line l).version, seq := s.mm.seq
                       data := (s.line l).data } }
    mm := { s.mm with seq := s.mm.seq + 1 } } := by
  have herase : s.fc.dirtyList.erase l = rest := by rw [h, List.erase_cons_head]
  rw [← herase]
  rfl

/-! ### A bad line -/

theorem setLine_line (l : Fin 32) (s : State) : setLine l (s.line l) s = s := by
  unfold setLine State.line
  rw [show s.fc.lines.set l.val s.fc.lines[l] l.isLt = s.fc.lines from Vector.set_getElem_self l.isLt]

/-- A ticket in flight was captured from the folio that line `l` holds (log 10). -/
def State.ticketOn (s : State) (l : Fin 32) : Bool := s.fc.ticket.any fun k => k.line == l && k.folio == (s.line l).folio

theorem voidTicket_eq (l : Fin 32) (s : State) :
    voidTicket l s = setLine l { s.line l with voidTicket := (s.line l).voidTicket || s.ticketOn l } s := by
  have hsame : s.ticketOn l = false →
      s = setLine l { s.line l with voidTicket := (s.line l).voidTicket || s.ticketOn l } s := fun h => by
    rw [h, Bool.or_false]
    exact (setLine_line l s).symm
  unfold voidTicket
  cases hk : s.fc.ticket with
  | none => exact hsame (by unfold State.ticketOn; rw [hk]; rfl)
  | some k =>
    have hon : s.ticketOn l = (k.line == l && k.folio == (s.line l).folio) := by unfold State.ticketOn; rw [hk]; rfl
    dsimp only
    by_cases h : k.line = l ∧ k.folio = (s.line l).folio
    · have htrue : s.ticketOn l = true := by rw [hon]; simpa using h
      rw [if_pos (by simpa using h), htrue, Bool.or_true]
    · have hfalse : s.ticketOn l = false := by rw [hon]; simpa using h
      rw [if_neg (by simpa using h)]
      exact hsame hfalse

/-- A DIRTY line in which the check finds an error, before its folio is poisoned (R99 steps 1 and 2). -/
def State.lostLine (s : State) (l : Fin 32) : State :=
  setLine l { s.line l with state := .invalid, purgeMark := none, data := [], voidTicket := (s.line l).voidTicket || s.ticketOn l }
    (invalidate l s)

theorem voidTicket_invalidate (l : Fin 32) (s : State) : voidTicket l (invalidate l s) = s.lostLine l := by
  have hline : (invalidate l s).line l = { s.line l with state := .invalid, purgeMark := none, data := [] } := by
    rw [line_invalidate, if_pos rfl]
  have hon : (invalidate l s).ticketOn l = s.ticketOn l := by
    unfold State.ticketOn
    rw [hline]
    rfl
  rw [voidTicket_eq, hline, hon]
  rfl

theorem line_lostLine (l m : Fin 32) (s : State) : (s.lostLine l).line m = if m = l then { s.line l with
    state := .invalid, purgeMark := none, data := [], voidTicket := (s.line l).voidTicket || s.ticketOn l } else s.line m := by
  unfold State.lostLine
  rw [line_setLine]
  split
  · rfl
  · next h => rw [line_invalidate, if_neg h]

/-- What poisoning does to the map and the reservations (R109, R119). -/
theorem poisonFolio_eq (f : Nat) (s : State) :
    poisonFolio f s = (if (s.mapEntry f).state = .poisoned then s else
      breakWhere (fun e => decide (e.start ≤ f ∧ f < e.start + e.length)) .media
        { s with mm := { s.mm with map := (poisonFolio f s).mm.map } })
      ∧ ∀ g, (poisonFolio f s).mapEntry g = if g = f then { s.mapEntry f with state := .poisoned } else s.mapEntry g := by
  by_cases h : (s.mapEntry f).state = .poisoned
  · have hstay : poisonFolio f s = s := if_pos h
    rw [if_pos h, hstay]
    refine ⟨rfl, fun g => ?_⟩
    split
    · next hg => rw [hg, ← h]
    · rfl
  · rw [if_neg h, ← overlaps_one]
    exact poisonFolio_spec f s h

theorem raiseFault_entries (c : FaultCode) (s : State) : (raiseFault c s).rvt.entries = [] := by
  unfold raiseFault breakAll
  rw [breakWhere_entries]
  simp

theorem raiseFault_pending (c : FaultCode) (s : State) : (raiseFault c s).ntc.pendingFault c = true := by
  unfold raiseFault breakAll
  rw [breakWhere_frame]
  change (s.ntc.faults ||| BitVec.twoPow 4 c.index).getLsbD c.index = true
  cases c <;> simp [FaultCode.index]

/-- A DIRTY line with an error is lost, its folio poisoned, and F4 raised (R99). -/
theorem dirtyLineError_eq (l : Fin 32) (s : State) :
    dirtyLineError l s = raiseFault .f4 (poisonFolio (s.line l).folio (s.lostLine l)) := by
  unfold dirtyLineError
  dsimp only
  rw [voidTicket_invalidate]

/-! ### The settlement of a ticket -/

/-- Line `l` holds the ticket's folio CLEAN at another version (R93 step 2). -/
def State.Stale (s : State) (k : Ticket) (l : Fin 32) : Prop :=
  s.findLine k.folio = some l ∧ (s.line l).state = .clean ∧ (s.line l).version ≠ k.version

/-- The ticket's line still holds what was captured (R93 step 3). -/
def State.Own (s : State) (k : Ticket) : Prop :=
  (s.line k.line).folio = k.folio ∧ (s.line k.line).state = .dirty ∧ (s.line k.line).version = k.version

/-- A line once it is INVALID (R85). -/
def Line.invalid (x : Line) : Line := { x with state := .invalid, purgeMark := none, data := [] }

/-- The lines that `P` selects, at most one of them, have become INVALID (R85, R73). -/
structure Dropped (P : Fin 32 → Prop) (s t : State) : Prop where
  frame : t = { s with
    csq := { s.csq with slots := t.csq.slots }
    fc := { s.fc with lines := t.fc.lines, dirtyList := t.fc.dirtyList } }
  line : ∀ m, (P m → t.line m = (s.line m).invalid) ∧ (¬P m → t.line m = s.line m)
  slot : ∃ keep : Triple → Bool, (∀ r, keep r = true ↔ ¬P r.line)
    ∧ ∀ n, t.slot n = { s.slot n with triples := (s.slot n).triples.filter keep }
  list : (∀ l, P l → t.fc.dirtyList = s.fc.dirtyList.erase l) ∧ ((∀ l, ¬P l) → t.fc.dirtyList = s.fc.dirtyList)

theorem Dropped.none {P : Fin 32 → Prop} (h : ∀ l, ¬P l) (s : State) : Dropped P s s where
  frame := rfl
  line m := ⟨fun hm => absurd hm (h m), fun _ => rfl⟩
  slot := ⟨fun _ => true, fun r => by simp [h r.line], fun n => by rw [List.filter_eq_self.2 fun _ _ => rfl]⟩
  list := ⟨fun l hl => absurd hl (h l), fun _ => rfl⟩

theorem Dropped.invalidate {P : Fin 32 → Prop} (h : ∀ m, P m ↔ m = l) (s : State) : Dropped P s (invalidate l s) where
  frame := invalidate_frame l s
  line m := ⟨fun hm => by rw [(h m).1 hm, line_invalidate, if_pos rfl, Line.invalid],
    fun hm => by rw [line_invalidate, if_neg fun he => hm ((h m).2 he)]⟩
  slot := ⟨fun r => !(r.line == l), fun r => by simp [h], fun n => slot_invalidate l n s⟩
  list := ⟨fun m hm => by rw [(h m).1 hm]; rfl, fun hn => absurd ((h l).2 rfl) (hn l)⟩

theorem Stale.eq (h : s.Stale k l) (hj : s.Stale k j) : j = l := Option.some.inj (hj.1.symm.trans h.1)

/-- A stale line of the ticket's folio is dropped, where the offer is accepted (R93 step 2). -/
theorem dropped_dropStale (b : Bool) (k : Ticket) (s : State) :
    Dropped (fun l => b = true ∧ s.Stale k l) s (if b then dropStale k s else s) := by
  cases b with
  | false => exact .none (fun l hl => absurd hl.1 Bool.false_ne_true) s
  | true =>
    rw [if_pos rfl]
    unfold dropStale
    cases hf : s.findLine k.folio with
    | none => exact .none (fun l hl => by rw [hl.2.1] at hf; cases hf) s
    | some l =>
      dsimp only
      by_cases h : (s.line l).state = .clean ∧ (s.line l).version ≠ k.version
      · rw [if_pos (by simpa using h)]
        exact .invalidate (fun m => ⟨fun hm => Stale.eq ⟨hf, h⟩ hm.2, fun hm => ⟨rfl, hm ▸ hf, hm ▸ h⟩⟩) s
      · rw [if_neg (by simpa using h)]
        refine .none (fun m hm => h ?_) s
        rw [show l = m from Option.some.inj (hf.symm.trans hm.2.1)]
        exact hm.2.2

theorem settleOwnLine_other (h : ¬s.Own k) : settleOwnLine k s = s :=
  if_neg (by simpa [State.Own, and_assoc] using h)

theorem settleOwnLine_own (h : s.Own k) : settleOwnLine k s =
    if (s.line k.line).purgeMark.isSome then purgeLine k.line s
    else setLine k.line { s.line k.line with state := .clean } s :=
  if_pos (by simpa [State.Own, and_assoc] using h)

theorem settleOwnLine_cleans (h : s.Own k) (hm : (s.line k.line).purgeMark = none) :
    settleOwnLine k s = setLine k.line { s.line k.line with state := .clean } s := by
  rw [settleOwnLine_own h, hm]
  rfl

theorem settleOwnLine_purges (h : s.Own k) (hm : (s.line k.line).purgeMark = some n) :
    settleOwnLine k s = modSlot n (fun sl => { sl with purged := sl.purged + 1 }) (invalidate k.line s) := by
  rw [settleOwnLine_own h, hm]
  unfold purgeLine
  rw [hm]
  rfl

/-- A writeback satisfies the triples of its line and folio at its version or an earlier one (R73). -/
theorem satisfies_iff (k : Ticket) (r : Triple) : k.satisfies r = true ↔
    r.line = k.line ∧ r.folio = k.folio ∧ (k.version - r.version).toNat < 2 ^ 31 := by
  have heq : k.version = r.version ↔ (k.version - r.version).toNat = 0 :=
    ⟨fun h => by simp [h], fun h => by bv_omega⟩
  unfold Ticket.satisfies versionLater
  simp only [Bool.and_eq_true, Bool.or_eq_true, beq_iff_eq, decide_eq_true_eq, heq, and_assoc]
  refine and_congr_right fun _ => and_congr_right fun _ => ?_
  omega


/-- An `if` depends on its condition only, whichever way that is decided. -/
theorem ite_of_iff {α : Sort*} {A B : Prop} {_ : Decidable A} {_ : Decidable B} (h : A ↔ B) {x x' y y' : α}
    (hx : x = x') (hy : y = y') : (if A then x else y) = if B then x' else y' := by
  rw [hx, hy]
  exact if_congr h rfl rfl

/-- The dirty list once the one line that `P` can select has left it. -/
theorem dirtyList_dropped {P : Fin 32 → Prop} {o : Option (Fin 32)} {_ : DecidablePred P} {list d : List (Fin 32)}
    (hstale : ∀ l, P l → list = d.erase l) (hnone : (∀ l, ¬P l) → list = d) :
    (∀ l, P l → o = some l) → list = match o with
      | some l => if P l then d.erase l else d
      | none => d := by
  intro hP
  cases o with
  | none => exact hnone fun l hl => by cases hP l hl
  | some l =>
    dsimp only
    by_cases h : P l
    · rw [if_pos h, hstale l h]
    · rw [if_neg h]
      exact hnone fun m hm => h (Option.some.inj (hP m hm) ▸ hm)

open Classical in
/-- What a ticket's offer does to the cache and the slots, before its triples are satisfied: the lines that `P` selects are
dropped as stale, and `own` says that the ticket's line still holds what was captured (R93 steps 2 and 3). -/
structure Settlement (P : Fin 32 → Prop) (own : Prop) (k : Ticket) (s t : State) : Prop where
  frame : t = { s with
    csq := { s.csq with slots := t.csq.slots }
    fc := { s.fc with lines := t.fc.lines, dirtyList := t.fc.dirtyList } }
  line : ∀ m, t.line m = if P m ∨ (own ∧ (s.line k.line).purgeMark ≠ none ∧ m = k.line) then (s.line m).invalid
    else if own ∧ m = k.line then { s.line k.line with state := .clean } else s.line m
  slot : ∃ keep : Triple → Bool,
    (∀ r, keep r = true ↔ ¬(P r.line ∨ (own ∧ (s.line k.line).purgeMark ≠ none ∧ r.line = k.line)))
    ∧ ∀ n, t.slot n = { s.slot n with
      triples := (s.slot n).triples.filter keep
      purged := if own ∧ (s.line k.line).purgeMark = some n then (s.slot n).purged + 1 else (s.slot n).purged }
  list : ∃ list, (∀ l, P l → list = s.fc.dirtyList.erase l) ∧ ((∀ l, ¬P l) → list = s.fc.dirtyList)
    ∧ t.fc.dirtyList = if own ∧ (s.line k.line).purgeMark ≠ none then list.erase k.line else list

/-- Where the ticket's line no longer holds what was captured, only the stale line is touched. -/
theorem Settlement.other {P : Fin 32 → Prop} {own : Prop} (h : Dropped P s t) (hown : ¬own) : Settlement P own k s t where
  frame := h.frame
  line m := by
    by_cases hm : P m
    · rw [if_pos (.inl hm), (h.line m).1 hm]
    · rw [if_neg (by tauto), if_neg (by tauto), (h.line m).2 hm]
  slot := by
    obtain ⟨keep, hkeep, hslot⟩ := h.slot
    exact ⟨keep, fun r => by rw [hkeep]; tauto, fun n => by rw [hslot n, if_neg (by tauto)]⟩
  list := ⟨_, h.list.1, h.list.2, by rw [if_neg (by tauto)]⟩

theorem Settlement.cleans {P : Fin 32 → Prop} {own : Prop} (h : Dropped P s t) (hown : own) (hk : ¬P k.line)
    (hm : (s.line k.line).purgeMark = none) : Settlement P own k s (setLine k.line { s.line k.line with state := .clean } t) where
  frame := by
    conv_lhs => rw [h.frame]
    rfl
  line m := by
    rw [line_setLine]
    by_cases he : m = k.line
    · rw [if_pos he, he, if_neg (by tauto), if_pos ⟨hown, rfl⟩]
    · rw [if_neg he]
      by_cases hp : P m
      · rw [if_pos (.inl hp), (h.line m).1 hp]
      · rw [if_neg (by tauto), if_neg (by tauto), (h.line m).2 hp]
  slot := by
    obtain ⟨keep, hkeep, hslot⟩ := h.slot
    refine ⟨keep, fun r => by rw [hkeep]; tauto, fun n => ?_⟩
    rw [if_neg fun hc => by rw [hm] at hc; cases hc.2]
    exact hslot n
  list := ⟨_, h.list.1, h.list.2, by rw [if_neg (by tauto)]; rfl⟩

theorem Settlement.purges {P : Fin 32 → Prop} {own : Prop} (h : Dropped P s t) (hown : own) (hk : ¬P k.line)
    (hm : (s.line k.line).purgeMark = some n) :
    Settlement P own k s (modSlot n (fun sl => { sl with purged := sl.purged + 1 }) (invalidate k.line t)) where
  frame := by
    conv_lhs => rw [h.frame]
    rfl
  line m := by
    change (invalidate k.line t).line m = _
    rw [line_invalidate]
    by_cases he : m = k.line
    · rw [if_pos he, he, if_pos (.inr ⟨hown, by simp [hm], rfl⟩), (h.line k.line).2 hk, Line.invalid]
    · rw [if_neg he]
      by_cases hp : P m
      · rw [if_pos (.inl hp), (h.line m).1 hp]
      · rw [if_neg (by tauto), if_neg (by tauto), (h.line m).2 hp]
  slot := by
    obtain ⟨keep, hkeep, hslot⟩ := h.slot
    refine ⟨fun r => !(r.line == k.line) && keep r, fun r => ?_, fun i => ?_⟩
    · simp only [Bool.and_eq_true, Bool.not_eq_true', beq_eq_false_iff_ne, hkeep, hm]
      simp
      tauto
    · have hinv : (invalidate k.line t).slot i = { s.slot i with
          triples := (s.slot i).triples.filter fun r => !(r.line == k.line) && keep r } := by
        rw [slot_invalidate, hslot i, List.filter_filter]
      rw [slot_modSlot]
      by_cases hi : i = n
      · rw [if_pos hi, if_pos ⟨hown, by rw [hm, hi]⟩, ← hi, hinv]
      · rw [if_neg hi, if_neg fun hc => hi (Option.some.inj (hm.symm.trans hc.2)).symm, hinv]
  list := ⟨_, h.list.1, h.list.2, by rw [if_pos ⟨hown, by simp [hm]⟩]; rfl⟩

/-- The ticket's own line is not the stale one, so dropping the stale line does not change whether it is settled. -/
theorem settlement_settleOwnLine {b : Bool} (h : Dropped (fun l => b = true ∧ s.Stale k l) s t) :
    Settlement (fun l => b = true ∧ s.Stale k l) (s.Own k) k s (settleOwnLine k t) := by
  by_cases hp : b = true ∧ s.Stale k k.line
  · have hown : ¬s.Own k := fun ho => by cases ho.2.1.symm.trans hp.2.2.1
    have hown' : ¬t.Own k := fun ho => by
      have hst := ho.2.1
      rw [(h.line k.line).1 hp] at hst
      cases hst
    rw [settleOwnLine_other hown']
    exact .other h hown
  · have hline := (h.line k.line).2 hp
    have hiff : t.Own k ↔ s.Own k := by unfold State.Own; rw [hline]
    by_cases hown : s.Own k
    · cases hm : (s.line k.line).purgeMark with
      | none =>
        rw [settleOwnLine_cleans (hiff.2 hown) (by rw [hline, hm]), hline]
        exact .cleans h hown hp hm
      | some n =>
        rw [settleOwnLine_purges (hiff.2 hown) (by rw [hline, hm])]
        exact .purges h hown hp hm
    · rw [settleOwnLine_other fun ho => hown (hiff.1 ho)]
      exact .other h hown

/-- The state in which a ticket's line is settled: its offer is made unless the line's ticket has been voided (R93 step 1). -/
def State.ticketOffered (s : State) (k : Ticket) (loc : Loc) : State :=
  if (s.line k.line).voidTicket then s else offerData k.folio k.seq loc s

/-- The ticket's offer is accepted: its line has not voided it, and its sequence is the higher one (R93, R117). -/
def State.ticketAccepted (s : State) (k : Ticket) : Prop :=
  (s.line k.line).voidTicket = false ∧ (s.mapEntry k.folio).seq.toNat < k.seq.toNat

theorem ticketOffered_frame (k : Ticket) (loc : Loc) (s : State) : s.ticketOffered k loc
    = { s with mm := { s.mm with map := (s.ticketOffered k loc).mm.map } } := by
  unfold State.ticketOffered
  split
  · rfl
  · exact offerData_frame _ _ _ s

theorem ticketOffered_rejected (h : ¬s.ticketAccepted k) : s.ticketOffered k loc = s := by
  unfold State.ticketOffered
  cases hv : (s.line k.line).voidTicket with
  | true => rfl
  | false => exact if_neg fun hacc => h ⟨hv, of_decide_eq_true hacc⟩

theorem mapEntry_ticketOffered (h : s.ticketAccepted k) (f : Nat) : (s.ticketOffered k loc).mapEntry f =
    if f = k.folio then { state := .mapped, target := some loc, seq := k.seq } else s.mapEntry f := by
  have hacc : s.offerAccepted k.folio k.seq = true := decide_eq_true h.2
  unfold State.ticketOffered
  rw [h.1, if_neg Bool.false_ne_true, mapEntry_offerData]
  exact if_congr (by simp [hacc]) rfl rfl

/-- The settlement of a ticket (R93): its offer, its line, and its triples. -/
theorem settleTicket_settlement (k : Ticket) (loc : Loc) (s : State) : ∃ w,
    settleTicket k loc s = { satisfyTriples k.satisfies w with fc := { w.fc with ticket := none } }
      ∧ Settlement (fun l => s.ticketAccepted k ∧ s.Stale k l) ((s.line k.line).voidTicket = false ∧ s.Own k) k
        (s.ticketOffered k loc) w := by
  refine ⟨_, rfl, ?_⟩
  cases hv : (s.line k.line).voidTicket with
  | true =>
    have hrej : ¬s.ticketAccepted k := fun h => Bool.false_ne_true (h.1.symm.trans hv)
    rw [ticketOffered_rejected hrej, if_pos rfl]
    exact .other (.none (fun l hl => hrej hl.1) s) (by simp)
  | false =>
    have hoff : s.ticketOffered k loc = offerData k.folio k.seq loc s := by
      unfold State.ticketOffered
      rw [hv]
      rfl
    rw [if_neg Bool.false_ne_true, ← hoff]
    have hiff : s.ticketAccepted k ↔ s.offerAccepted k.folio k.seq = true := by
      unfold State.ticketAccepted State.offerAccepted
      simp [hv]
    have hfind : (s.ticketOffered k loc).findLine k.folio = s.findLine k.folio := by rw [ticketOffered_frame]; rfl
    have hline : ∀ l, (s.ticketOffered k loc).line l = s.line l := fun l => by rw [ticketOffered_frame]; rfl
    have hstale : ∀ l, (s.ticketOffered k loc).Stale k l ↔ s.Stale k l := fun l => by
      unfold State.Stale
      rw [hfind, hline]
    have hown : (s.ticketOffered k loc).Own k ↔ s.Own k := by
      unfold State.Own
      rw [hline]
    have hset := settlement_settleOwnLine (dropped_dropStale (s.offerAccepted k.folio k.seq) k (s.ticketOffered k loc))
    simp only [hstale, hown, ← hiff] at hset
    simpa using hset

/-! ### The statement -/

theorem exec_ticketComplete (h : s.PortRuns .wbe (.program loc p)) (hk : s.fc.ticket = some k) :
    exec .ticketComplete s = .next (endUnit (settleTicket k loc (landProgram loc p s))) := by
  obtain ⟨hrest, ticks, hport⟩ := h
  change Host.Outcome.next (endUnit (ticketLanded (caughtUp s))) = _
  rw [caughtUp_atRest hrest]
  unfold ticketLanded
  rw [hport, hk]
  rfl

/-- Settles O56. -/
theorem ticketIsCapturedAndSettled : Obligations.TicketIsCapturedAndSettled := by
  unfold Obligations.TicketIsCapturedAndSettled
  refine ⟨wbeRuns_iff, fun s bad hrest => ?_, fun s l => ?_, fun s k loc p h hk => exec_ticketComplete h hk, fun s k loc => ?_⟩
  · rw [exec_wbeCapture hrest]
    refine ⟨fun l rest hfree hlist => ⟨fun hb => ?_, fun hb => ?_⟩, fun hnone => ?_⟩
    · rw [hb, wbeCaptureOp, if_pos ((wbeMayCapture_iff s).2 hfree), hlist, ← capture_head rest hlist]
      rfl
    · rw [hb, wbeCaptureOp, if_pos ((wbeMayCapture_iff s).2 hfree), hlist]
      rfl
    · by_cases hmay : s.wbeMayCapture = true
      · rw [wbeCaptureOp, if_pos hmay, hnone.resolve_left fun hn => hn ((wbeMayCapture_iff s).1 hmay)]
      · rw [wbeCaptureOp, if_neg hmay]
  · obtain ⟨hpoison, hmap⟩ := poisonFolio_eq (s.line l).folio (s.lostLine l)
    have hmm : (dirtyLineError l s).mm = (poisonFolio (s.line l).folio (s.lostLine l)).mm := by
      rw [dirtyLineError_eq, raiseFault_frame]
    have hfc : (dirtyLineError l s).fc = (s.lostLine l).fc := by
      rw [dirtyLineError_eq, raiseFault_frame, poisonFolio_frame]
    have hcsq : (dirtyLineError l s).csq = (s.lostLine l).csq := by
      rw [dirtyLineError_eq, raiseFault_frame, poisonFolio_frame]
    have hline : ∀ m, (dirtyLineError l s).line m = (s.lostLine l).line m := fun m => by
      unfold State.line
      rw [hfc]
    refine ⟨?_, fun g => ?_, fun m => ?_, ?_, fun n => ?_, ?_, ?_⟩
    · dsimp only
      rw [hmm, dirtyLineError_eq]
      exact congrArg (raiseFault .f4) hpoison
    · have hg := hmap g
      unfold State.mapEntry at hg ⊢
      rw [hmm]
      exact hg
    · rw [hline, line_lostLine]
      rfl
    · rw [hfc]
      rfl
    · have hslot : (dirtyLineError l s).slot n = (invalidate l s).slot n := congrArg (fun c : Csq => c.slots[n]) hcsq
      rw [hslot, slot_invalidate]
      rfl
    · rw [dirtyLineError_eq]
      exact raiseFault_pending _ _
    · rw [dirtyLineError_eq]
      exact raiseFault_entries _ _
  · obtain ⟨w, hw, hset⟩ := settleTicket_settlement k loc s
    have hoff := ticketOffered_frame k loc s
    have hentry : ∀ f, s.ticketAccepted k → _ := fun f h => mapEntry_ticketOffered (loc := loc) h f
    have hrejected : ¬s.ticketAccepted k → (s.ticketOffered k loc).mm = s.mm := fun h => by rw [ticketOffered_rejected h]
    generalize s.ticketOffered k loc = v at hset hoff hentry hrejected
    generalize hv : v.mm.map = map at hoff
    subst hoff
    obtain ⟨hframe, hline, ⟨keep, hkeep, hslot⟩, list, hstale, hnone, hlist⟩ := hset
    have hmm : w.mm = { s.mm with map := map } := by rw [hframe]
    refine ⟨?_, fun l => ?_, fun n => ?_, fun f => ?_, fun hrej => ?_⟩
    · obtain rfl : map = w.mm.map := by rw [hmm]
      rw [hw]
      change ({ satisfyTriples k.satisfies w with fc := { w.fc with ticket := none } } : State) = _
      conv_lhs => rw [hframe]
      refine congrArg (fun d => ({ s with
        csq := { s.csq with slots := (satisfyTriples k.satisfies w).csq.slots }
        fc := { s.fc with lines := w.fc.lines, ticket := none, dirtyList := d }
        mm := { s.mm with map := w.mm.map } } : State)) (hlist.trans (ite_of_iff Iff.rfl ?_ ?_))
      · exact congrArg (fun d => d.erase k.line) (dirtyList_dropped hstale hnone fun l hl => hl.2.1)
      · exact dirtyList_dropped hstale hnone fun l hl => hl.2.1
    · rw [hw]
      refine (hline l).trans (ite_of_iff Iff.rfl rfl (ite_of_iff Iff.rfl rfl rfl))
    · rw [hw]
      change (satisfyTriples k.satisfies w).slot n = _
      have hfilter : (fun r => (!k.satisfies r) && keep r) = fun r => decide (¬(r.line = k.line ∧ r.folio = k.folio
          ∧ (k.version - r.version).toNat < 2 ^ 31) ∧ keep r = true) := by
        funext r
        rw [Bool.eq_iff_iff]
        simp only [Bool.and_eq_true, Bool.not_eq_true', ← Bool.not_eq_true, satisfies_iff, decide_eq_true_eq]
      unfold satisfyTriples
      rw [slot_mapSlots, hslot n]
      dsimp only
      rw [List.filter_filter, hfilter]
      refine congrArg₂ (fun x y => ({ s.slot n with triples := x, purged := y } : Slot)) ?_ (ite_of_iff Iff.rfl rfl rfl)
      exact List.filter_congr fun r _ => decide_eq_decide.2 (and_congr_right fun _ => hkeep r)
    · rw [hw]
      change w.mm.map.entry f = _
      rw [hmm]
      by_cases hacc : s.ticketAccepted k
      · exact (hentry f hacc).trans (ite_of_iff (iff_and_self.2 fun _ => hacc) rfl rfl)
      · rw [if_neg fun hc => hacc hc.1]
        exact congrArg (fun x : Media => x.map.entry f) (hrejected hacc)
    · rw [hw]
      exact hmm.trans (hrejected hrej)

end Sys2Proof.Machine
end

section
/-! SLEEP, DOZE and the end of WAKING (O59). -/

namespace Sys2Proof.Machine

variable {s t u : State} {n m : Fin 8} {a : Apply} {b : BufId} {w : Nat}

/-! ### SLEEP -/

theorem ticketAtRest_iff (s : State) : s.ticketAtRest = true ↔ ∀ k, s.fc.ticket = some k →
    (s.line k.line).voidTicket = true ∧ ∃ op, s.mm.port = some op ∧ op.req = .wbe := by
  unfold State.ticketAtRest
  cases s.fc.ticket with
  | none => simp
  | some k => cases hp : s.mm.port <;> simp

theorem quiescent_iff (s : State) (n m : Fin 8) : s.quiescent n m = true ↔ (m ≠ n →
    (s.slot m).state = .free ∨ (s.slot m).state = .done ∨ (m ∈ s.younger n ∧ (s.slot m).state = .queued)) := by
  unfold State.quiescent
  simp only [Bool.or_eq_true, Bool.and_eq_true, beq_iff_eq, List.contains_iff_mem]
  tauto

theorem sleepReady_iff (s : State) (n : Fin 8) : s.sleepReady n = true ↔ s.dirtyCount = 0 ∧ s.frozen = false
    ∧ (∀ m, m ≠ n →
      (s.slot m).state = .free ∨ (s.slot m).state = .done ∨ (m ∈ s.younger n ∧ (s.slot m).state = .queued))
    ∧ ∀ k, s.fc.ticket = some k → (s.line k.line).voidTicket = true ∧ ∃ op, s.mm.port = some op ∧ op.req = .wbe := by
  unfold State.sleepReady
  simp only [Bool.and_eq_true, decide_eq_true_eq, Bool.not_eq_true', ticketAtRest_iff, List.all_eq_true, List.mem_finRange,
    true_imp_iff, quiescent_iff]
  tauto

theorem youngerQueued_iff (s : State) (n : Fin 8) : s.youngerQueued n = true ↔ ∃ m ∈ s.younger n, (s.slot m).state = .queued := by
  unfold State.youngerQueued
  simp

theorem exec_sleepCompletion (h : s.AtRest) (ha : s.csq.apply = some a) (hw : a.wait = .forSleep) :
    exec .sleepCompletion s = .next (endUnit (if s.sleepReady a.slot then completeSleep a.slot s else s)) := by
  change Host.Outcome.next (endUnit (sleepComplete (caughtUp s))) = _
  rw [caughtUp_atRest h]
  unfold sleepComplete
  rw [ha]
  simp [hw]

/-- Every entry is broken (R106). -/
theorem breakAll_eq (c : BreakCause) (s : State) : breakAll c s = { s with
    rvt := { entries := [], lost := match s.rvt.entries.getLast? with
      | some last => some { cause := c, token := last.token }
      | none => s.rvt.lost }
    ntc := { s.ntc with evPending := s.ntc.evPending ||| (if s.rvt.entries = [] then 0 else 4) } } := by
  have hall : s.rvt.entries.filter (fun _ => true) = s.rvt.entries := List.filter_eq_self.2 fun _ _ => rfl
  unfold breakAll
  cases hlast : s.rvt.entries.getLast? with
  | none =>
    have hnil := List.getLast?_eq_none_iff.1 hlast
    rw [breakWhere_none (by rw [hall, hnil]), if_pos hnil,
      show s.ntc.evPending ||| 0 = s.ntc.evPending from BitVec.or_zero, ← hnil]
  | some last =>
    have hne : s.rvt.entries ≠ [] := fun h => by rw [h] at hlast; cases hlast
    rw [breakWhere_last (by rw [hall]; exact hlast), if_neg hne]
    simp

/-- Entry into SLEEP (R82, R170). -/
theorem enterSleep_eq (s : State) : enterSleep s = { s with
    pwr := { s.pwr with state := .sleep, intent := false, idleTimer := 0 }
    rvt := { entries := [], lost := match s.rvt.entries.getLast? with
      | some last => some { cause := .sleep, token := last.token }
      | none => s.rvt.lost }
    ntc := { s.ntc with evPending := s.ntc.evPending ||| (if s.rvt.entries = [] then 0 else 4) ||| 128 } } := by
  unfold enterSleep
  dsimp only
  rw [breakAll_eq]
  rfl

/-! ### DOZE and the end of WAKING -/

theorem dozeReady_iff (s : State) : s.dozeReady = true ↔ s.pwr.state = .idle ∧ s.pwr.intent = true ∧ s.slotWork = false
    ∧ s.engineWork = false ∧ s.dirtyCount = 0 ∧ s.frozen = false := by
  unfold State.dozeReady
  simp [and_assoc]

theorem due_dozeEntry_iff (s : State) : s.due = some .dozeEntry ↔ s.csq.apply = none ∧ s.startable = none
    ∧ s.dozeReady = true := by
  unfold State.due
  cases s.csq.apply with
  | some a =>
    refine iff_of_false (fun h => ?_) (by simp)
    dsimp only at h
    cases hw : a.wait with
    | forLine | forReclaim =>
      rw [hw] at h
      dsimp only at h
      split_ifs at h
      cases h
    | between | forMedia | forSleep =>
      rw [hw] at h
      cases h
  | none =>
    cases s.startable with
    | some n => simp
    | none => simp

theorem exec_mediaReady (h : s.AtRest) : exec .mediaReady s = .next (endUnit (mediaReadyOp s)) := by
  change Host.Outcome.next (endUnit (mediaReadyOp (caughtUp s))) = _
  rw [caughtUp_atRest h]

/-- Settles O59. -/
theorem powerStatesAreEntered : Obligations.PowerStatesAreEntered := by
  unfold Obligations.PowerStatesAreEntered
  refine ⟨fun s a hrest ha hw => ?_, fun s hdue => ?_, fun s => ?_, fun s hrest => ⟨fun hst hup => ?_, fun hnone => ?_⟩⟩
  · rw [exec_sleepCompletion hrest ha hw]
    refine ⟨fun hn => ?_, fun hr hy => ?_, fun hr hy => ?_⟩
    · rw [if_neg fun h => hn ((sleepReady_iff s a.slot).1 h)]
    · rw [if_pos ((sleepReady_iff s a.slot).2 hr), completeSleep, if_pos ((youngerQueued_iff s a.slot).2 hy)]
      rfl
    · rw [if_pos ((sleepReady_iff s a.slot).2 hr), completeSleep, if_neg fun h => hy ((youngerQueued_iff s a.slot).1 h),
        enterSleep_eq]
      have hrvt : (finishApply a.slot .ok 0 s).rvt = s.rvt := by unfold finishApply; rw [completeSlot_rvt, settleSlots_rvt]
      rw [hrvt]
      rfl
  · change Host.Outcome.next (dueRow (isDue .dozeEntry) false s) = _
    rw [dueRow_selected (d := .dozeEntry) false hdue (by simp [isDue])]
    rfl
  · rw [due_dozeEntry_iff, dozeReady_iff]
  · rw [exec_mediaReady hrest, mediaReadyOp, if_pos (by simp [hst, hup])]
    rfl
  · rw [exec_mediaReady hrest, mediaReadyOp, if_neg]
    rcases hnone with hst | hup
    · simp [hst]
    · simp [hup]

end Sys2Proof.Machine
end

section
/-! The tick and its pieces of work (O60). -/

namespace Sys2Proof.Machine

variable {s t u : State} {n m : Fin 8} {b : BufId} {w : Nat}

/-! ### When the tick runs -/

theorem ticking_iff (s : State) : s.ticking = true ↔
    s.rst.portReset = false ∧ s.rst.inReset = none ∧ ¬(s.pwr.state = .sleep ∧ s.pwr.mediaOn = false) := by
  unfold State.ticking State.held
  simp [and_assoc, imp_iff_not_or]

theorem tickWhen_runs {p : State → Bool} (h : s.ticking = true) (hp : p s = true) (b0 b1 : Option Nat) :
    tickWhen p b0 b1 s = tickOp b0 b1 s := if_pos (by rw [h, hp]; rfl)

theorem tickWhen_not (p : State → Bool) (h : ¬s.ticking = true) (b0 b1 : Option Nat) : tickWhen p b0 b1 s = s :=
  if_neg (by simp [h])

/-- The special ticks of log 14, each with the condition that its effect falls in this tick. -/
def specialTicks (b0 b1 : Option Nat) : List (Instr × (State → Bool)) :=
  [(.tick b0 b1, fun _ => true), (.stallLimit b0 b1, State.stallsNow), (.powerupStall b0 b1, State.powerUpStallsNow),
    (.quietEnd b0 b1, State.quietEndsNow), (.coalesceTimeout b0 b1, State.timeoutNow), (.dozeIntentArm b0 b1, State.armsNow)]

theorem exec_specialTick (h : s.AtRest) (b0 b1 : Option Nat) :
    ∀ x ∈ specialTicks b0 b1, exec x.1 s = .next (endUnit (tickWhen x.2 b0 b1 s)) := by
  have hrow : ∀ p : State → Bool,
      (Host.Outcome.next (endUnit (tickWhen p b0 b1 (caughtUp s))) : Host.Outcome State Fault Refusal)
        = .next (endUnit (tickWhen p b0 b1 s)) := fun p => by rw [caughtUp_atRest h]
  simp only [specialTicks, List.forall_mem_cons]
  exact ⟨hrow _, hrow _, hrow _, hrow _, hrow _, hrow _, nofun⟩

/-! ### The pieces of work -/

theorem tickCoalesce_running {k : CoalesceTimer} (hk : s.ntc.timer = some k) : tickCoalesce s =
    if k.limit ≤ k.elapsed + 1 then announce s
    else { s with ntc := { s.ntc with timer := some { k with elapsed := k.elapsed + 1 } } } := by
  unfold tickCoalesce
  rw [hk]

theorem dozeLimit_iff (d : Byte) (v : Nat) : (d != 0 && decide (d.toNat * 100 ≤ v)) = decide (0 < d.toNat ∧ d.toNat * 100 ≤ v) := by
  have hd : d ≠ 0 ↔ 0 < d.toNat := by bv_omega
  rw [Bool.eq_iff_iff]
  simp only [Bool.and_eq_true, bne_iff_ne, decide_eq_true_eq, hd]

/-- The idle timer counts, and arms the intent at the limit (R167). -/
theorem tickIdle_counts (hst : s.pwr.state = .idle) (hint : s.pwr.intent = false) : tickIdle s = { s with pwr := { s.pwr with
    idleTimer := min 25500 (s.pwr.idleTimer + 1)
    intent := decide (0 < s.pwr.dozeDelay.toNat ∧ s.pwr.dozeDelay.toNat * 100 ≤ min 25500 (s.pwr.idleTimer + 1)) } } := by
  have e1 : Config.idleMax = 25500 := rfl
  have e2 : Config.dozeUnit = 100 := rfl
  unfold tickIdle armIntent
  rw [if_pos (by simp [hst, hint])]
  dsimp only
  rw [e1, e2, dozeLimit_iff]
  by_cases h : 0 < s.pwr.dozeDelay.toNat ∧ s.pwr.dozeDelay.toNat * 100 ≤ min 25500 (s.pwr.idleTimer + 1)
  · rw [decide_eq_true h]
    rfl
  · rw [decide_eq_false h, if_neg Bool.false_ne_true, ← hint]

/-! ### The check of the buffers -/

theorem checkBuffer_held {b : BufId} (h : (s.buf b).holder = some n) : checkBuffer b (some w) s =
    if s.checksWord b n w then
      if (s.slot n).state = .unloading then settleSlots (readBufferError n s) else settleSlots (writeBufferError n s)
    else s := by
  unfold checkBuffer
  rw [h]

theorem checksWord_iff (s : State) (b : BufId) (n : Fin 8) (w : Nat) : s.checksWord b n w = true ↔
    w < (s.buf b).words.length ∧ ((s.slot n).state = .loading ∨ (s.slot n).state = .loaded
      ∨ ((s.slot n).state = .unloading ∧ (s.buf b).consumed ≤ w)) := by
  unfold State.checksWord
  simp [or_assoc]

theorem checkBuffer_passes (h : ∀ n, (s.buf b).holder = some n → ¬s.checksWord b n w = true) : checkBuffer b (some w) s = s := by
  cases hh : (s.buf b).holder with
  | none =>
    unfold checkBuffer
    rw [hh]
  | some n => rw [checkBuffer_held hh, if_neg (h n hh)]

theorem slot_raiseFault (c : FaultCode) (n : Fin 8) (s : State) : (raiseFault c s).slot n = s.slot n :=
  congrArg (fun x : Csq => x.slots[n]) (raiseFault_csq c s)

/-- The captured words after a bad word in the phase of the port owner (R8). -/
def Hpi.dropWord (p : Hpi) : Hpi :=
  { p with captured := p.captured.map fun c => if c.effect = .consumeWord then { c with effect := .dropped } else c }

theorem dropConsumption_eq (s : State) : dropConsumption s = { s with hpi := s.hpi.dropWord } := by
  have hsame : s.hpi.dropWord.captured = s.hpi.captured → s = { s with hpi := s.hpi.dropWord } := fun h => by
    have : s.hpi.dropWord = { s.hpi with captured := s.hpi.dropWord.captured } := rfl
    rw [this, h]
  unfold dropConsumption
  cases hc : s.hpi.captured with
  | none => exact hsame (by unfold Hpi.dropWord; rw [hc]; rfl)
  | some c =>
    dsimp only
    by_cases he : c.effect = .consumeWord
    · rw [if_pos he]
      unfold Hpi.dropWord
      rw [hc, Option.map_some, if_pos he]
    · rw [if_neg he]
      exact hsame (by unfold Hpi.dropWord; rw [hc, Option.map_some, if_neg he])

theorem raiseFault_setHpi (c : FaultCode) (p : Hpi) (s : State) :
    raiseFault c { s with hpi := p } = { raiseFault c s with hpi := p } := by
  unfold raiseFault
  rw [breakAll_eq, breakAll_eq]
  rfl

theorem readBufferError_owner {b : BufId} (hb : s.bufOf n = some b) (ho : s.dp.owner = some n) : readBufferError n s =
    completeSlot n .bufferError ((s.buf b).consumed / 256) (raiseFault .f4 { s with hpi := s.hpi.dropWord }) := by
  have howner : (raiseFault .f4 s).dp.owner = some n := by rw [raiseFault_dp]; exact ho
  have hconsumed : (dropConsumption (raiseFault .f4 s)).consumedOf n = (s.buf b).consumed := by
    rw [dropConsumption_eq, ← consumedOf_eq hb]
    change (raiseFault .f4 s).consumedOf n = _
    unfold State.consumedOf State.bufOf State.buf
    rw [raiseFault_dp]
  have hhpi : (raiseFault .f4 s).hpi = s.hpi := by rw [raiseFault_frame]
  unfold readBufferError
  dsimp only
  rw [if_pos howner, hconsumed, dropConsumption_eq, hhpi, raiseFault_setHpi .f4 s.hpi.dropWord s]
  rfl

theorem readBufferError_other {b : BufId} (hb : s.bufOf n = some b) (ho : s.dp.owner ≠ some n) : readBufferError n s =
    completeSlot n .bufferError ((s.buf b).consumed / 256) (raiseFault .f4 s) := by
  have howner : (raiseFault .f4 s).dp.owner ≠ some n := by rw [raiseFault_dp]; exact ho
  have hconsumed : (raiseFault .f4 s).consumedOf n = (s.buf b).consumed := by
    rw [← consumedOf_eq hb]
    unfold State.consumedOf State.bufOf State.buf
    rw [raiseFault_dp]
  unfold readBufferError
  dsimp only
  rw [if_neg howner, hconsumed]
  rfl

theorem writeBufferError_eq (n : Fin 8) (s : State) : writeBufferError n s = completeSlot n .bufferError 0
    (setSlot n { s.slot n with flags := CompFlags.none, detail := 0 } (raiseFault .f4 s)) := by
  unfold writeBufferError modSlot
  rw [slot_raiseFault]

/-- Settles O60. -/
theorem tickWorksInOrder : Obligations.TickWorksInOrder := by
  unfold Obligations.TickWorksInOrder
  refine ⟨fun s b0 b1 hrest => ?_, fun s => ⟨fun h => if_pos h, fun h => if_neg h, fun h => ?_, fun k hk => ⟨fun h => ?_, fun h => ?_⟩,
    fun h => ?_, fun hst hint => tickIdle_counts hst hint, fun h => ?_, fun k hk => ⟨fun h => ?_, fun h => ?_⟩, fun h => ?_, rfl,
    fun b w => ?_⟩⟩
  · have hall := exec_specialTick hrest b0 b1
    have hnot : ¬s.ticking = true → ∀ x ∈ specialTicks b0 b1, exec x.1 s = .next (endUnit s) := fun h x hx => by
      rw [hall x hx, tickWhen_not x.2 h]
    have hruns : s.ticking = true → ∀ x ∈ specialTicks b0 b1, x.2 s = true → exec x.1 s = .next (endUnit (tickOp b0 b1 s)) :=
      fun h x hx hp => by rw [hall x hx, tickWhen_runs h hp]
    simp only [specialTicks, List.forall_mem_cons] at hnot hruns
    rw [ticking_iff] at hnot hruns
    refine ⟨fun h => (hruns h).1 trivial, fun h => ?_, fun h hq => ?_, fun k h hk hl => ?_, fun h harm => ?_, fun k h hk hl => ?_⟩
    · obtain ⟨htick, hstall, hpower, hquiet, htimeout, harm, -⟩ := hnot h
      simp only [List.forall_mem_cons]
      exact ⟨htick, hstall, hpower, hquiet, htimeout, harm, nofun⟩
    · obtain ⟨-, -, -, hquiet, -⟩ := hruns h
      exact hquiet (by unfold State.quietEndsNow; simpa using hq)
    · obtain ⟨-, -, -, -, htimeout, -⟩ := hruns h
      exact htimeout (by unfold State.timeoutNow; rw [hk]; simpa using hl)
    · obtain ⟨hst, hint, hlimit⟩ := harm
      obtain ⟨-, -, -, -, -, harms, -⟩ := hruns h
      refine harms ?_
      unfold State.armsNow
      rw [Bool.and_assoc]
      refine Bool.and_eq_true_iff.2 ⟨by simp [hst, hint], ?_⟩
      exact (dozeLimit_iff s.pwr.dozeDelay (min 25500 (s.pwr.idleTimer + 1))).trans (decide_eq_true hlimit)
    · obtain ⟨-, -, hpower, -⟩ := hruns h
      refine hpower ?_
      unfold State.powerUpStallsNow
      rw [hk]
      exact decide_eq_true (Nat.lt_succ_of_le hl)
  · unfold tickCoalesce
    rw [h]
  · rw [tickCoalesce_running hk, if_neg (by omega)]
  · rw [tickCoalesce_running hk, if_pos h]
    rfl
  · unfold tickIdle
    rw [if_neg (by rcases h with h | h <;> simp [h])]
  · unfold tickPowerUp
    rw [h]
  · unfold tickPowerUp
    rw [hk]
    exact if_neg (by show ¬400 < k + 1; omega)
  · unfold tickPowerUp
    rw [hk]
    exact if_pos (by show 400 < k + 1; omega)
  · unfold tickStall
    rw [h]
  · intro check dropped
    have hcheck : check = checkBuffer b (some w) s := by cases b <;> rfl
    rw [hcheck]
    refine ⟨fun h => checkBuffer_passes fun n hn hw => ?_, fun n hb hlen => ?_⟩
    · rcases h with h | h
      · rw [h] at hn
        cases hn
      · exact Nat.not_lt.2 h ((checksWord_iff s b n w).1 hw).1
    · have hheld := checkBuffer_held (w := w) (bufOf_iff_holder b hb)
      refine ⟨fun hst => ?_, fun hst hc ho => ?_, fun hst hc ho => ?_, fun hst hc => ?_, fun hst => ?_⟩
      · rw [hheld, if_pos ((checksWord_iff s b n w).2 ⟨hlen, by tauto⟩), if_neg (by rcases hst with h | h <;> simp [h]),
          writeBufferError_eq]
      · rw [hheld, if_pos ((checksWord_iff s b n w).2 ⟨hlen, .inr (.inr ⟨hst, hc⟩)⟩), if_pos hst, readBufferError_other hb ho]
      · rw [hheld, if_pos ((checksWord_iff s b n w).2 ⟨hlen, .inr (.inr ⟨hst, hc⟩)⟩), if_pos hst, readBufferError_owner hb ho]
        rfl
      · rw [hheld, if_neg]
        rw [checksWord_iff]
        rintro ⟨-, h | h | ⟨-, h⟩⟩
        · cases hst.symm.trans h
        · cases hst.symm.trans h
        · omega
      · rw [hheld, if_neg]
        rw [checksWord_iff]
        simp only [List.mem_cons, List.not_mem_nil, or_false] at hst
        tauto

end Sys2Proof.Machine
end

section
/-! Validity and the choice of reclaim's victim (O57, R122, R124). -/

namespace Sys2Proof.Machine

variable {s t u : State} {g h : Nat} {loc : Loc}

/-! ### Rising lists -/

theorem head?_eq_some_iff {l : List Nat} (h : l.Pairwise (· < ·)) (x : Nat) : l.head? = some x ↔ x ∈ l ∧ ∀ y ∈ l, x ≤ y := by
  cases l with
  | nil => simp
  | cons z l =>
    have hz := (List.pairwise_cons.1 h).1
    rw [List.head?_cons, Option.some_inj]
    constructor
    · rintro rfl
      exact ⟨List.mem_cons_self, List.forall_mem_cons.2 ⟨le_refl z, fun y hy => (hz y hy).le⟩⟩
    · rintro ⟨hx, hall⟩
      rcases List.mem_cons.1 hx with hxz | hx
      · exact hxz.symm
      · have := hall z List.mem_cons_self
        have := hz x hx
        omega

theorem keys_rising {α : Type} {l : List (Nat × α)} (h : sparseWf l = true) (q : Nat × α → Bool) :
    ((l.filter q).map fun p => p.1).Pairwise (· < ·) := List.pairwise_map.2 (((sparseWf_iff l).1 h).filter q)

theorem triple_lt_iff {a b c d e f : Nat} : [a, b, c] < [d, e, f] ↔ a < d ∨ (a = d ∧ (b < e ∨ (b = e ∧ c < f))) := by
  simp [List.cons_lt_cons_iff]

/-! ### Targets -/

/-- Some folio of the address space has the location as its target (R116). -/
def State.IsTarget (s : State) (l : Loc) : Prop := ∃ f < 245760, (s.mapEntry f).target = some l

/-- Fewer items than folios leave a folio of the address space unlisted, and only they do. -/
theorem exists_unlisted_iff {α : Type} {l : List (Nat × α)} (h : sparseWf l = true) {k : Nat} (hk : ∀ p ∈ l, p.1 < k) :
    l.length < k ↔ ∃ f < k, sparseGet f l = none := by
  have hkeys : (l.map Prod.fst).Nodup := List.pairwise_map.2 (((sparseWf_iff l).1 h).imp fun h => Nat.ne_of_lt h)
  constructor
  · intro hlen
    by_contra hall
    have hsub : List.range k ⊆ l.map Prod.fst := fun f hf => by
      by_contra hnot
      refine hall ⟨f, List.mem_range.1 hf, sparseGet_eq_none fun p hp he => hnot ?_⟩
      exact List.mem_map.2 ⟨p, hp, he⟩
    have := (List.nodup_range.subperm hsub).length_le
    rw [List.length_range, List.length_map] at this
    omega
  · rintro ⟨f, hf, hnone⟩
    have hnotin : f ∉ l.map Prod.fst := fun hmem => by
      obtain ⟨p, hp, he⟩ := List.mem_map.1 hmem
      exact (sparseGet_eq_none_iff f l).1 hnone p hp he
    have hsub : f :: l.map Prod.fst ⊆ List.range k := List.cons_subset.2 ⟨List.mem_range.2 hf, fun g hg => by
      obtain ⟨p, hp, rfl⟩ := List.mem_map.1 hg
      exact List.mem_range.2 (hk p hp)⟩
    have := ((List.nodup_cons.2 ⟨hnotin, hkeys⟩).subperm hsub).length_le
    rw [List.length_range, List.length_cons, List.length_map] at this
    omega

theorem targets_iff (hs : s.StoresSound) (hf : ∀ p ∈ s.mm.map.items, p.1 < 245760) (l : Loc) :
    s.mm.map.targets l = true ↔ s.IsTarget l := by
  have hwf : sparseWf s.mm.map.items = true := ((FolioMap.wf_iff _).1 hs.2.1).1
  have hnum : Config.numFolios = 245760 := rfl
  unfold FolioMap.targets State.IsTarget State.mapEntry FolioMap.entry
  simp only [Bool.or_eq_true, Bool.and_eq_true, decide_eq_true_eq, beq_iff_eq, List.any_eq_true, hnum,
    exists_unlisted_iff hwf hf]
  constructor
  · rintro (⟨⟨f, hlt, hnone⟩, ht⟩ | ⟨p, hp, ht⟩)
    · exact ⟨f, hlt, by rw [hnone]; exact ht⟩
    · refine ⟨p.1, hf p hp, ?_⟩
      rw [(sparseGet_eq_some hwf).2 hp]
      exact ht
  · rintro ⟨f, hlt, ht⟩
    cases hget : sparseGet f s.mm.map.items with
    | none =>
      rw [hget] at ht
      exact .inl ⟨⟨f, hlt, hget⟩, ht⟩
    | some e =>
      rw [hget] at ht
      exact .inr ⟨(f, e), (sparseGet_eq_some hwf).1 hget, ht⟩

/-! ### Validity -/

/-- The location holds a pending folio of the atomic WRITE in progress (R122). -/
def State.PendingAt (s : State) (l : Loc) : Prop := ∃ a, s.csq.apply = some a ∧ l ∈ a.pendingLocs

theorem pendingLoc_iff (s : State) (l : Loc) : s.pendingLoc l = true ↔ s.PendingAt l := by
  unfold State.pendingLoc State.PendingAt
  cases s.csq.apply <;> simp

theorem holdsPending_iff (s : State) (g : Nat) : s.holdsPending g = true ↔ ∃ l, s.PendingAt l ∧ l / 64 = g := by
  have hsize : Config.groupFolios = 64 := rfl
  unfold State.holdsPending State.PendingAt
  cases s.csq.apply <;> simp [groupOf, hsize]

theorem holdsTentativeTarget_iff (hs : s.StoresSound) (g : Nat) : s.holdsTentativeTarget g = true ↔ ∃ l x,
    (s.cell l = some x ∧ x.complete = true ∧ x.metadata.kind = .tentative) ∧ l / 64 = g ∧ s.mm.map.targets l = true := by
  unfold State.holdsTentativeTarget State.cell
  simp only [List.any_eq_true, Bool.and_eq_true, beq_iff_eq]
  constructor
  · rintro ⟨⟨l, x⟩, hmem, ⟨⟨hg, hcomplete⟩, hkind⟩, ht⟩
    exact ⟨l, x, ⟨(sparseGet_eq_some hs.1).2 hmem, hcomplete, hkind⟩, hg, ht⟩
  · rintro ⟨l, x, ⟨hcell, hcomplete, hkind⟩, hg, ht⟩
    exact ⟨(l, x), (sparseGet_eq_some hs.1).1 hcell, ⟨⟨hg, hcomplete⟩, hkind⟩, ht⟩

theorem validLoc_iff (s : State) (l : Loc) : s.validLoc l = true ↔
    s.mm.map.targets l = true ∨ s.PendingAt l ∨ ∃ r ∈ s.mm.commitNotes, r.loc = l ∧ s.noteLive r = true := by
  unfold State.validLoc
  rw [← pendingLoc_iff]
  simp only [Bool.or_eq_true, List.any_eq_true, Bool.and_eq_true, beq_iff_eq, or_assoc]

theorem fullQualifies_iff (s : State) (g : Nat) : s.fullQualifies g = true ↔
    s.holdsPending g = false ∧ (s.validCount g < 64 ∨ s.holdsTentativeTarget g = true) := by
  have hsize : Config.groupFolios = 64 := rfl
  unfold State.fullQualifies
  simp [hsize]

theorem mem_locsOf (hs : s.StoresSound) (g : Nat) (l : Loc) : l ∈ s.locsOf g ↔ s.cell l ≠ none ∧ l / 64 = g := by
  unfold State.locsOf State.cell
  simp only [List.mem_map, List.mem_filter, beq_iff_eq]
  constructor
  · rintro ⟨⟨j, x⟩, ⟨hmem, hg⟩, rfl⟩
    rw [(sparseGet_eq_some hs.1).2 hmem]
    exact ⟨nofun, hg⟩
  · rintro ⟨hcell, hg⟩
    obtain ⟨x, hx⟩ := Option.ne_none_iff_exists'.1 hcell
    exact ⟨(l, x), ⟨(sparseGet_eq_some hs.1).1 hx, hg⟩, rfl⟩

/-- The valid folios of a group, counted over its positions (R122). -/
theorem validCount_eq (hs : s.StoresSound) (g : Nat) : s.validCount g =
    ((List.range 64).filter fun q => (s.cell (g * 64 + q)).isSome && s.validLoc (g * 64 + q)).length := by
  have hkeys : (s.locsOf g).Nodup := (keys_rising hs.1 _).imp fun h => Nat.ne_of_lt h
  unfold State.validCount
  rw [← List.length_map (fun q => g * 64 + q) (as := (List.range 64).filter _)]
  refine List.Perm.length_eq ((List.perm_ext_iff_of_nodup (hkeys.filter _)
    ((List.nodup_range.filter _).map fun a b hab => Nat.add_left_cancel hab)).2 fun l => ?_)
  simp only [List.mem_map, List.mem_filter, mem_locsOf hs, List.mem_range, Bool.and_eq_true, Option.isSome_iff_ne_none]
  constructor
  · rintro ⟨⟨hcell, hg⟩, hvalid⟩
    have hl : g * 64 + l % 64 = l := hg ▸ Nat.div_add_mod' l 64
    exact ⟨l % 64, ⟨Nat.mod_lt l (by decide), by rw [hl]; exact ⟨hcell, hvalid⟩⟩, hl⟩
  · rintro ⟨q, ⟨hq, hcell, hvalid⟩, rfl⟩
    exact ⟨⟨hcell, by rw [Nat.mul_comm, Nat.mul_add_div (by decide), Nat.div_eq_of_lt hq, Nat.add_zero]⟩, hvalid⟩

/-! ### The victim -/

theorem mem_groupsIn (hs : s.StoresSound) {st : GroupState} (hst : st ≠ .free) (g : Nat) :
    g ∈ s.groupsIn st ↔ (s.group g).state = st := by
  unfold State.groupsIn State.group
  simp only [List.mem_map, List.mem_filter, beq_iff_eq]
  constructor
  · rintro ⟨⟨j, x⟩, ⟨hmem, hx⟩, rfl⟩
    rw [(sparseGet_eq_some hs.2.2.1).2 hmem]
    exact hx
  · intro hx
    cases hg : sparseGet g s.mm.groups with
    | none =>
      rw [hg] at hx
      exact absurd hx.symm hst
    | some x =>
      rw [hg] at hx
      exact ⟨(g, x), ⟨(sparseGet_eq_some hs.2.2.1).1 hg, hx⟩, rfl⟩

/-- The RETIRING groups that can be victims (R124). -/
def State.retiringVictims (s : State) : List Nat := (s.groupsIn .retiring).filter fun g => !s.holdsPending g

theorem pickVictim_retiring (h : s.retiringVictims.head? = some g) : s.pickVictim = some g := by
  unfold State.retiringVictims at h
  unfold State.pickVictim
  cases hl : (s.groupsIn .retiring).filter fun g => !s.holdsPending g with
  | nil =>
    rw [hl] at h
    cases h
  | cons x l =>
    rw [hl] at h
    exact h

theorem pickVictim_full (h : s.retiringVictims = []) : s.pickVictim =
    leastBy (fun g => [s.validCount g, (s.group g).erases, g]) ((s.groupsIn .full).filter s.fullQualifies) := by
  unfold State.retiringVictims at h
  unfold State.pickVictim
  rw [h]

theorem retiringVictims_eq_nil : s.retiringVictims = [] ↔ ∀ g ∈ s.groupsIn .retiring, s.holdsPending g = true := by
  unfold State.retiringVictims
  simp

theorem head?_retiringVictims (hs : s.StoresSound) (g : Nat) : s.retiringVictims.head? = some g ↔
    (g ∈ s.groupsIn .retiring ∧ s.holdsPending g = false)
      ∧ ∀ h ∈ s.groupsIn .retiring, s.holdsPending h = false → g ≤ h := by
  have hrising : s.retiringVictims.Pairwise (· < ·) := (keys_rising hs.2.2.1 _).filter _
  rw [head?_eq_some_iff hrising]
  unfold State.retiringVictims
  simp only [List.mem_filter, Bool.not_eq_true', and_imp]

theorem pickVictim_least (hs : s.StoresSound) (hr : s.retiringVictims = []) (h : s.pickVictim = some g) :
    ((s.group g).state = .full ∧ s.fullQualifies g = true) ∧ ∀ h, (s.group h).state = .full → s.fullQualifies h = true →
      s.validCount g < s.validCount h ∨ (s.validCount g = s.validCount h
        ∧ ((s.group g).erases < (s.group h).erases ∨ ((s.group g).erases = (s.group h).erases ∧ g ≤ h))) := by
  rw [pickVictim_full hr] at h
  obtain ⟨hmem, hleast⟩ := leastBy_eq_some h
  simp only [List.mem_filter, mem_groupsIn hs (show GroupState.full ≠ .free by decide)] at hmem hleast
  refine ⟨hmem, fun j hj hq => ?_⟩
  have hnot := hleast j ⟨hj, hq⟩
  rw [triple_lt_iff] at hnot
  omega

theorem leastBy_eq_none_iff {α : Type} (rank : α → List Nat) (l : List α) : leastBy rank l = none ↔ l = [] :=
  ⟨leastBy_eq_none, fun h => by rw [h]; rfl⟩

theorem pickVictim_eq_none (hs : s.StoresSound) : s.pickVictim = none ↔
    (∀ g, (s.group g).state = .retiring → s.holdsPending g = true)
      ∧ ∀ g, (s.group g).state = .full → s.fullQualifies g = false := by
  have hretiring : s.retiringVictims = [] ↔ ∀ g, (s.group g).state = .retiring → s.holdsPending g = true := by
    simp only [retiringVictims_eq_nil, mem_groupsIn hs (show GroupState.retiring ≠ .free by decide)]
  rw [← hretiring]
  by_cases hr : s.retiringVictims = []
  · rw [pickVictim_full hr, leastBy_eq_none_iff]
    simp [hr, mem_groupsIn hs]
  · obtain ⟨g, hg⟩ := Option.ne_none_iff_exists'.1 fun hn => hr (List.head?_eq_none_iff.1 hn)
    simp [pickVictim_retiring hg, hr]

end Sys2Proof.Machine
end

section
/-! How reclaim goes on, its copies and erases, and relocation's copy (O57, R118, R125, R128, R130). -/

namespace Sys2Proof.Machine

variable {s t u : State} {g h q pos : Nat} {loc : Loc} {o : Origin} {v : Victim} {p : Prog} {c : Copy}

/-! ### The next position of a victim -/

/-- Position `q` of group `g` holds a valid folio (R122). -/
def State.ValidAt (s : State) (g q : Nat) : Prop := q < 64 ∧ s.cell (g * 64 + q) ≠ none ∧ s.validLoc (g * 64 + q) = true

/-- The valid locations of a group from a position up. -/
def State.validFrom (s : State) (g pos : Nat) : List Loc :=
  (s.locsOf g).filter fun l => decide (pos ≤ l % 64) && s.validLoc l

theorem validFrom_rising (hs : s.StoresSound) (g pos : Nat) : (s.validFrom g pos).Pairwise (· < ·) :=
  (keys_rising hs.1 _).filter _

theorem mem_validFrom (hs : s.StoresSound) (g pos : Nat) (l : Loc) : l ∈ s.validFrom g pos ↔
    ∃ q, l = g * 64 + q ∧ pos ≤ q ∧ s.ValidAt g q := by
  unfold State.validFrom State.ValidAt
  simp only [List.mem_filter, mem_locsOf hs, Bool.and_eq_true, decide_eq_true_eq]
  constructor
  · rintro ⟨⟨hcell, hg⟩, hpos, hvalid⟩
    have hl : g * 64 + l % 64 = l := hg ▸ Nat.div_add_mod' l 64
    exact ⟨l % 64, hl.symm, hpos, Nat.mod_lt l (by decide), by rw [hl]; exact ⟨hcell, hvalid⟩⟩
  · rintro ⟨q, rfl, hpos, hq, hcell, hvalid⟩
    have hdiv : (g * 64 + q) / 64 = g := by omega
    have hmod : (g * 64 + q) % 64 = q := by omega
    exact ⟨⟨hcell, hdiv⟩, by rw [hmod]; exact hpos, hvalid⟩

theorem nextValidPos_eq (g pos : Nat) (s : State) : s.nextValidPos g pos = (s.validFrom g pos).head?.map fun l => l % 64 := rfl

theorem nextValidPos_first (hs : s.StoresSound) (hq : s.ValidAt g q) (hpos : pos ≤ q)
    (hfirst : ∀ r, pos ≤ r → r < q → ¬s.ValidAt g r) : s.nextValidPos g pos = some q := by
  have hhead : (s.validFrom g pos).head? = some (g * 64 + q) := by
    rw [head?_eq_some_iff (validFrom_rising hs g pos), mem_validFrom hs]
    refine ⟨⟨q, rfl, hpos, hq⟩, fun l hl => ?_⟩
    obtain ⟨r, rfl, hr, hvalid⟩ := (mem_validFrom hs g pos l).1 hl
    have hle : q ≤ r := not_lt.1 fun hlt => hfirst r hr hlt hvalid
    exact Nat.add_le_add_left hle _
  have hmod : (g * 64 + q) % 64 = q := by have := hq.1; omega
  rw [nextValidPos_eq, hhead]
  exact congrArg some hmod

theorem nextValidPos_none (hs : s.StoresSound) (h : ∀ r, pos ≤ r → ¬s.ValidAt g r) : s.nextValidPos g pos = none := by
  have hnil : s.validFrom g pos = [] := List.eq_nil_iff_forall_not_mem.2 fun l hl => by
    obtain ⟨r, -, hr, hvalid⟩ := (mem_validFrom hs g pos l).1 hl
    exact h r hr hvalid
  rw [nextValidPos_eq, hnil]
  rfl

/-! ### How reclaim goes on -/

theorem reclaimProgress_idle (h : s.mm.victim = none) : reclaimProgress s = s := by
  unfold reclaimProgress
  rw [h]

theorem reclaimProgress_copying (hv : s.mm.victim = some v) (h : v.copy ≠ none) : reclaimProgress s = s := by
  unfold reclaimProgress
  rw [hv]
  exact if_pos (Option.isSome_iff_ne_none.2 h)

theorem reclaimProgress_goes (hv : s.mm.victim = some v) (hc : v.copy = none) (h : s.nextCopyPos v = some q) :
    reclaimProgress s = { s with mm := { s.mm with victim := some { v with pos := q } } } := by
  unfold reclaimProgress
  rw [hv]
  dsimp only
  rw [hc, h]
  rfl

theorem reclaimProgress_ends (hv : s.mm.victim = some v) (hc : v.copy = none) (h : s.nextCopyPos v = none) :
    reclaimProgress s =
      if (s.group v.group).state = .retiring then
        endVictim v.group (retireGroup v.group ((s.group v.group).origin.getD .programFail) s)
      else if 3000 ≤ (s.group v.group).erases then reserveFell (endVictim v.group (retireGroup v.group .wear s))
      else { s with mm := { s.mm with victim := some { v with pos := 64 } } } := by
  unfold reclaimProgress
  rw [hv]
  dsimp only
  rw [hc, h]
  rfl

/-- A victim that is retired (R114, R125, R132). -/
theorem retireVictim_spec (g : Nat) (o : Origin) (s : State) (ht : t = endVictim g (retireGroup g o s)) :
    t = { s with
        mm := { s.mm with
          groups := t.mm.groups, victim := none
          defects := if s.mm.defects.length < 256 then s.mm.defects ++ [{ group := g, origin := o }] else s.mm.defects
          relocQueue := s.mm.relocQueue.filter fun l => l / 64 != g }
        ntc := { s.ntc with evPending := s.ntc.evPending ||| 16 } }
      ∧ t.group g = { s.group g with state := .retired, origin := some o, erasing := false }
      ∧ ∀ h, h ≠ g → t.group h = s.group h := by
  have hgroup (h : Nat) : t.group h = if h = g then { s.group g with state := .retired, origin := some o, erasing := false }
      else s.group h := by
    have hstores : t.mm.groups
        = (putGroup g { s.group g with state := .retired, origin := some o, erasing := false } s).mm.groups := by
      rw [ht, retireGroup, addDefect_eq]
      rfl
    rw [← group_putGroup]
    exact congrArg (fun x => (sparseGet h x).getD Group.fresh) hstores
  refine ⟨?_, (hgroup g).trans (if_pos rfl), fun h hne => (hgroup h).trans (if_neg hne)⟩
  rw [ht, retireGroup, addDefect_eq]
  rfl

/-- A RETIRING victim is retired with its origin (R125). -/
theorem reclaimProgress_retiring (hv : s.mm.victim = some v) (hc : v.copy = none) (h : s.nextCopyPos v = none)
    (hst : (s.group v.group).state = .retiring) (ho : (s.group v.group).origin = some o) :
    reclaimProgress s = endVictim v.group (retireGroup v.group o s) := by
  rw [reclaimProgress_ends hv hc h, if_pos hst, ho]
  rfl

/-- A victim at the endurance limit is retired with origin WEAR, and the reserve falls (R125, R133). -/
theorem reclaimProgress_worn (hv : s.mm.victim = some v) (hc : v.copy = none) (h : s.nextCopyPos v = none)
    (hst : (s.group v.group).state ≠ .retiring) (he : 3000 ≤ (s.group v.group).erases) :
    reclaimProgress s = reserveFell (endVictim v.group (retireGroup v.group .wear s)) := by
  rw [reclaimProgress_ends hv hc h, if_neg hst, if_pos he]

theorem reserveFell_groups (s : State) : (reserveFell s).mm.groups = s.mm.groups := by rw [reserveFell_frame]

/-- A retirement with which the reserve does not fall evaluates no threshold (R133). -/
theorem retired_stands (r : Nat) (s : State) (x : List (Nat × Group)) (d : List Defect) (l : List Loc) (e : BitVec 9) :
    ({ s with
        mm := { s.mm with groups := x, victim := none, defects := d, relocQueue := l }
        ntc := { s.ntc with evPending := e } } : State)
      = { s with
        mm := { s.mm with
          groups := x, victim := none, defects := d, relocQueue := l
          readOnly := s.mm.readOnly || (false && decide (r ≤ 4)) }
        ntc := { s.ntc with evPending := e ||| (if false = true ∧ r ≤ 24 then 32 else 0)
          ||| if false = true ∧ r ≤ 4 ∧ s.mm.readOnly = false then 64 else 0 } } := by
  simp

/-! ### Erased groups and copied folios -/

theorem sparseGet_filter_key {α : Type} (q : Nat → Bool) (k : Nat) (l : List (Nat × α)) :
    sparseGet k (l.filter fun p => q p.1) = if q k then sparseGet k l else none := by
  induction l with
  | nil => simp [sparseGet]
  | cons p rest ih =>
    rw [List.filter_cons]
    by_cases hk : p.1 = k
    · subst hk
      cases hq : q p.1
      · rw [if_neg Bool.false_ne_true, ih, hq, if_neg Bool.false_ne_true, if_neg Bool.false_ne_true]
      · rw [if_pos rfl, if_pos rfl]
        simp [sparseGet]
    · have hrest : sparseGet k (p :: rest) = sparseGet k rest := if_neg hk
      rw [hrest]
      split
      · rw [show sparseGet k (p :: rest.filter fun p => q p.1) = sparseGet k (rest.filter fun p => q p.1) from if_neg hk, ih]
      · exact ih

theorem cell_eraseGroup (g : Nat) (l : Loc) (s : State) : (eraseGroup g s).cell l = if l / 64 = g then none else s.cell l := by
  have hgroup : (groupOf l != g) = true ↔ ¬l / 64 = g := bne_iff_ne
  refine (sparseGet_filter_key (fun k => groupOf k != g) l s.mm.flash).trans ?_
  by_cases h : l / 64 = g
  · rw [if_pos h, if_neg fun hn => hgroup.1 hn h]
  · rw [if_neg h, if_pos (hgroup.2 h)]
    rfl

theorem group_eraseGroup (g h : Nat) (s : State) : (eraseGroup g s).group h = if h = g then
    { state := .free, origin := none, erases := (s.group g).erases + 1, erasing := false, nextFree := 0 }
    else s.group h := group_putGroup g h _ _

/-- A copy moves the entries that target its source (R118). -/
theorem entry_moveTarget {m : FolioMap} (hm : m.wf = true) (src dst : Loc) (f : Nat) :
    (m.moveTarget src dst).entry f = (m.entry f).moved src dst := by
  have hwf := sparseWf_map (fun e : MapEntry => e.moved src dst) ((FolioMap.wf_iff m).1 hm).1
  unfold FolioMap.moveTarget FolioMap.entry
  dsimp only
  rw [getD_sparseGet_filter hwf (fun p hp => by simpa using hp), sparseGet_map, Option.getD_map]

theorem mapEntry_landCopy (hs : s.StoresSound) (src dst : Loc) (f : Nat) : (landCopy src dst s).mapEntry f =
    { s.mapEntry f with target := if (s.mapEntry f).target = some src then some dst else (s.mapEntry f).target } := by
  refine (entry_moveTarget hs.2.1 src dst f).trans ?_
  unfold MapEntry.moved
  split
  · next h => exact congrArg (fun x => ({ s.mapEntry f with target := x } : MapEntry)) (if_pos h).symm
  · next h => exact congrArg (fun x => ({ s.mapEntry f with target := x } : MapEntry)) (if_neg h).symm

theorem sourceStands_iff (s : State) (c : Copy) :
    s.sourceStands c = true ↔ ∃ x, s.cell c.src = some x ∧ x.metadata.seq = c.prog.metadata.seq := by
  unfold State.sourceStands
  cases s.cell c.src <;> simp

theorem landProgram_health (loc : Loc) (p : Prog) (s : State) : (landProgram loc p s).mm.health = s.mm.health := by
  rw [landProgram_frame]

theorem landProgram_ntc (loc : Loc) (p : Prog) (s : State) : (landProgram loc p s).ntc = s.ntc := by rw [landProgram_frame]

/-! ### The rows -/

theorem exec_reclaimVictimChoice (h : s.AtRest) : exec .reclaimVictimChoice s = .next (endUnit (chooseVictim s)) := by
  change Host.Outcome.next (endUnit (chooseVictim (caughtUp s))) = _
  rw [caughtUp_atRest h]

theorem exec_reclaimCopyComplete (h : s.PortRuns .reclaim (.program loc p)) (hv : s.mm.victim = some v) (hc : v.copy = some c) :
    exec .reclaimCopyComplete s = .next (endUnit (reclaimProgress { landCopy c.src loc (landProgram loc p s) with
      mm := { (landCopy c.src loc (landProgram loc p s)).mm with
        victim := some { v with pos := v.pos + 1, copy := none } } })) := by
  obtain ⟨hrest, ticks, hport⟩ := h
  change Host.Outcome.next (endUnit (reclaimCopied (caughtUp s))) = _
  rw [caughtUp_atRest hrest]
  unfold reclaimCopied
  rw [hport, hv]
  dsimp only
  rw [hc]
  rfl

theorem exec_reclaimEraseComplete (h : s.PortRuns .reclaim (.erase g)) (ok : Bool) : exec (.reclaimEraseComplete ok) s =
    .next (endUnit (if ok then endVictim g (eraseGroup g (clearPort s)) else failErase g .eraseFail s)) := by
  obtain ⟨hrest, ticks, hport⟩ := h
  change Host.Outcome.next (endUnit (reclaimErased ok (caughtUp s))) = _
  rw [caughtUp_atRest hrest]
  unfold reclaimErased
  rw [hport]
  rfl

/-- The end of relocation's copy: it is counted and MEDIA is pending (R128). -/
theorem exec_relocationCopyComplete (h : s.PortRuns .relocation (.program loc p)) (hc : s.mm.relocCopy = some c) :
    exec .relocationCopyComplete s = .next (endUnit (setEvent .media (modHealth
      (fun x => { x with relocationsDone := saturating x.relocationsDone 1 })
      { (if s.sourceStands c then landCopy c.src loc (landProgram loc p s) else landProgram loc p s) with
        mm := { (if s.sourceStands c then landCopy c.src loc (landProgram loc p s) else landProgram loc p s).mm with
          relocCopy := none } }))) := by
  obtain ⟨hrest, ticks, hport⟩ := h
  change Host.Outcome.next (endUnit (relocationCopied (caughtUp s))) = _
  rw [caughtUp_atRest hrest]
  unfold relocationCopied
  rw [hport, hc]
  rfl

/-- Where reclaim may choose, it takes what `pickVictim` gives (R124). -/
theorem chooseVictim_active (hact : s.reclaimPriority ≠ .inactive) (hvictim : s.mm.victim = none) (hfrozen : s.frozen = false)
    (hmount : s.mount = none) (hawake : s.pwr.state = .active ∨ s.pwr.state = .idle) :
    (∀ g, s.pickVictim = some g → chooseVictim s =
        reclaimProgress { s with mm := { s.mm with victim := some { group := g, pos := 0, copy := none } } })
      ∧ (s.pickVictim = none → chooseVictim s = s) := by
  unfold chooseVictim State.awake
  rw [if_pos (by simp [hact, hvictim, hfrozen, hmount, hawake])]
  exact ⟨fun g hg => by rw [hg], fun hn => by rw [hn]⟩

theorem chooseVictim_inactive (h : s.reclaimPriority = .inactive) : chooseVictim s = s := by
  unfold chooseVictim
  rw [if_neg (by simp [h])]

/-- Settles O57. -/
theorem reclaimAndRelocationComplete : Obligations.ReclaimAndRelocationComplete := by
  unfold Obligations.ReclaimAndRelocationComplete
  refine ⟨fun s hrest hvictim hfrozen hmount hawake => ?_, fun s hs => ⟨fun g hg hp hleast => ?_, fun g hall hg => ?_⟩,
    fun s hs => pickVictim_eq_none hs, fun s hs hf => ?_, fun s h => reclaimProgress_idle h,
    fun s v hv h => reclaimProgress_copying hv h, fun s v hs hv hc => ?_, fun s loc p v c h hv hc => exec_reclaimCopyComplete h hv hc,
    fun s g ok h => ⟨_, exec_reclaimEraseComplete h ok, fun j hj => ?_, fun hok => ?_, fun hok => ?_⟩,
    fun s loc p c h hc => ⟨fun hst => ?_, fun hst => ?_⟩, fun s src dst f hs => ⟨rfl, mapEntry_landCopy hs src dst f⟩⟩
  · rw [exec_reclaimVictimChoice hrest]
    dsimp only
    rw [← reclaimPriority_active_iff]
    refine ⟨fun g hact hg => ?_, fun hnone => ?_⟩
    · rw [(chooseVictim_active hact hvictim hfrozen hmount hawake).1 g hg]
    · by_cases hact : s.reclaimPriority = .inactive
      · rw [chooseVictim_inactive hact]
      · rw [(chooseVictim_active hact hvictim hfrozen hmount hawake).2 (hnone.resolve_left fun hn => hn hact)]
  · exact pickVictim_retiring ((head?_retiringVictims hs g).2 ⟨⟨hg, hp⟩, hleast⟩)
  · obtain ⟨⟨hst, hq⟩, hleast⟩ := pickVictim_least hs (retiringVictims_eq_nil.2 hall) hg
    obtain ⟨hpending, hcount⟩ := (fullQualifies_iff s g).1 hq
    exact ⟨hst, hpending, hcount, hleast⟩
  · have htarget := targets_iff hs hf
    refine ⟨fun l => ⟨htarget l, ?_⟩, fun g => ⟨validCount_eq hs g, holdsPending_iff s g, ?_, fullQualifies_iff s g⟩⟩
    · rw [validLoc_iff, htarget]
      simp only [noteLive_iff hs, htarget]
      refine or_congr_right (or_congr_right (exists_congr fun r => and_congr_right fun _ => and_congr_right fun _ =>
        exists_congr fun l => exists_congr fun x => ?_))
      constructor
      · rintro ⟨hcell, hcomplete, hkind, hbase, ht⟩
        exact ⟨⟨hcell, hcomplete, hkind⟩, hbase, ht⟩
      · rintro ⟨⟨hcell, hcomplete, hkind⟩, hbase, ht⟩
        exact ⟨hcell, hcomplete, hkind, hbase, ht⟩
    · rw [holdsTentativeTarget_iff hs]
      simp only [htarget]
      rfl
  · have hnext : s.nextCopyPos v = (s.nextValidPos v.group v.pos).or (s.nextValidPos v.group 0) := rfl
    have hend (hnone : ∀ q, ¬s.ValidAt v.group q) : s.nextCopyPos v = none := by
      rw [hnext, nextValidPos_none hs fun r _ => hnone r, nextValidPos_none hs fun r _ => hnone r]
      rfl
    refine ⟨fun q hpos hq hfirst => ?_, fun hnone q hq hfirst => ?_, fun hnone => ⟨fun o hst ho => ?_, fun hst he => ?_,
      fun hst he => ?_⟩⟩
    · exact reclaimProgress_goes hv hc (by rw [hnext, nextValidPos_first hs hq hpos hfirst]; rfl)
    · refine reclaimProgress_goes hv hc ?_
      rw [hnext, nextValidPos_none hs hnone, nextValidPos_first hs hq (Nat.zero_le q) fun r _ hr => hfirst r hr]
      rfl
    · obtain ⟨hframe, hgroup, hother⟩ := retireVictim_spec v.group o s rfl
      rw [reclaimProgress_retiring hv hc (hend hnone) hst ho]
      exact ⟨hframe.trans (retired_stands _ s _ _ _ _), hgroup, hother⟩
    · obtain ⟨hframe, hgroup, hother⟩ := retireVictim_spec v.group .wear s rfl
      rw [reclaimProgress_worn hv hc (hend hnone) hst he]
      generalize endVictim v.group (retireGroup v.group .wear s) = w at hframe hgroup hother
      have hgroups : ∀ j, (reserveFell w).group j = w.group j := fun j =>
        congrArg (fun x => (sparseGet j x).getD Group.fresh) (reserveFell_groups w)
      refine ⟨?_, (hgroups _).trans hgroup, fun j hj => (hgroups j).trans (hother j hj)⟩
      rw [reserve_reserveFell, reserveFell_groups, reserveFell_spec]
      generalize w.reserve = r
      rw [hframe]
      simp only [true_and, Bool.true_and]
    · rw [reclaimProgress_ends hv hc (hend hnone), if_neg hst, if_neg (not_le.2 he)]
  · cases ok with
    | true => exact (group_eraseGroup g j (clearPort s)).trans (if_neg hj)
    | false =>
      obtain ⟨-, -, hother⟩ := failErase_spec g .eraseFail s rfl
      rw [if_neg Bool.false_ne_true]
      exact hother j hj
  · rw [hok]
    exact ⟨rfl, (group_eraseGroup g g (clearPort s)).trans (if_pos rfl), fun l => cell_eraseGroup g l (clearPort s)⟩
  · obtain ⟨hframe, hgroup, -⟩ := failErase_spec g .eraseFail s rfl
    rw [hok, if_neg Bool.false_ne_true]
    exact ⟨hframe, hgroup⟩
  · rw [exec_relocationCopyComplete h hc, if_pos ((sourceStands_iff s c).2 hst), ← landProgram_health loc p s,
      ← landProgram_ntc loc p s]
    rfl
  · rw [exec_relocationCopyComplete h hc, if_neg fun hs => hst ((sourceStands_iff s c).1 hs), ← landProgram_health loc p s,
      ← landProgram_ntc loc p s]
    rfl

end Sys2Proof.Machine
end

section
/-! The scan of a mount (O58, R139 to R141). -/

namespace Sys2Proof.Machine

variable {s t u : State} {g k : Nat} {loc : Loc} {x : ScanClass} {o : Origin}

/-! ### On to the next group -/

/-- `v` is `u` with the mount gone on to the first group from `k` up that is not RETIRED, or come to its resolution (R139). -/
def OnTo (k : Nat) (u v : State) : Prop :=
  (∀ g, k ≤ g → g < 4096 → (u.group g).state ≠ .retired → (∀ h, k ≤ h → h < g → (u.group h).state = .retired) →
      v = { u with mm := { u.mm with
        port := some { req := .mount, op := if (u.group g).erasing = true then .erase g else .read (g * 64), ticks := 0 } } })
    ∧ ((∀ g, k ≤ g → g < 4096 → (u.group g).state = .retired) →
      v = { u with mount := u.mount.map fun m => { m with phase := .resolution } })

theorem onTo_mountGroup (hu : u.StoresSound) (k : Nat) : OnTo k u (mountGroup k u) := by
  refine ⟨fun g hk hlt hg hall => mountGroup_found (nextGroup_eq hu hk hg hall) hlt, fun hall => mountGroup_none ?_⟩
  obtain ⟨hle, hnot, -⟩ := nextGroup_spec hu k
  by_contra hlt
  exact hnot (hall _ hle (not_le.1 hlt))

/-! ### A metadata read -/

theorem exec_mountRead (h : s.PortRuns .mount (.read loc)) (readable : Bool) :
    exec (.mountMetadataReadComplete readable) s = .next (endUnit (scanPosition loc readable (clearPort s))) := by
  obtain ⟨hrest, ticks, hport⟩ := h
  change Host.Outcome.next (endUnit (mountRead readable (caughtUp s))) = _
  rw [caughtUp_atRest hrest]
  have hnow : s.mountOpNow = some (.read loc) := by
    unfold State.mountOpNow
    rw [hport]
    rfl
  unfold mountRead
  rw [hnow]

theorem scanPosition_erased (h : s.cell loc = none) (readable : Bool) :
    scanPosition loc readable (clearPort s) = endGroup (loc / 64) (loc % 64) (clearPort s) := by
  have hcell : (clearPort s).cell loc = none := h
  unfold scanPosition
  rw [hcell]
  rfl

theorem scanPosition_programmed {c : Cell} (h : s.cell loc = some c) (readable : Bool) : scanPosition loc readable (clearPort s)
    = nextPosition loc (classify loc (c.scanClass readable) (clearPort s)) := by
  have hcell : (clearPort s).cell loc = some c := h
  unfold scanPosition
  rw [hcell]

theorem exec_mountErase (h : s.PortRuns .mount (.erase g)) (ok : Bool) : exec (.mountReeraseComplete ok) s =
    .next (endUnit (reerased g (if ok then none else some .eraseFail) s)) := by
  obtain ⟨hrest, ticks, hport⟩ := h
  change Host.Outcome.next (endUnit (mountErased ok (caughtUp s))) = _
  rw [caughtUp_atRest hrest]
  have hnow : s.mountOpNow = some (.erase g) := by
    unfold State.mountOpNow
    rw [hport]
    rfl
  unfold mountErased
  rw [hnow]

/-! ### The end of a group and of a re-erase -/

/-- The state in which the scan of a group has ended, before the mount goes on (R141). -/
def State.groupScanned (s : State) (g used : Nat) : State :=
  if used = 0 ∨ (s.group g).state = .retiring then putGroup g { s.group g with nextFree := used } s
  else
    modMount (fun m => { m with
      fullGroups := m.fullGroups ++ [g], closed := if used < 64 then m.closed + 1 else m.closed })
      (putGroup g { s.group g with nextFree := used } s)

theorem endGroup_eq (g used : Nat) (s : State) : endGroup g used s = mountGroup (g + 1) (s.groupScanned g used) := by
  have hstate : ((putGroup g { s.group g with nextFree := used } s).group g).state = (s.group g).state := by
    rw [group_putGroup, if_pos rfl]
  unfold endGroup State.groupScanned
  dsimp only
  rw [hstate]
  congr 1
  by_cases h : used = 0 ∨ (s.group g).state = .retiring
  · rw [if_pos h, if_pos (by simpa using h)]
  · rw [if_neg h, if_neg (by simpa using h)]
    rfl

theorem mm_groupScanned (g used : Nat) (s : State) :
    (s.groupScanned g used).mm = (putGroup g { s.group g with nextFree := used } s).mm := by
  unfold State.groupScanned
  split
  · rfl
  · rfl

theorem groupScanned_frame (g used : Nat) (s : State) : s.groupScanned g used = { s with
    mount := (s.groupScanned g used).mount, mm := { s.mm with groups := (s.groupScanned g used).mm.groups } } := by
  unfold State.groupScanned
  split
  · rfl
  · rfl

theorem group_groupScanned (g used h : Nat) (s : State) : (s.groupScanned g used).group h =
    if h = g then { s.group g with nextFree := used } else s.group h := by
  rw [← group_putGroup]
  exact congrArg (fun x : Media => (sparseGet h x.groups).getD Group.fresh) (mm_groupScanned g used s)

theorem storesSound_groupScanned (hs : s.StoresSound) (g used : Nat) : (s.groupScanned g used).StoresSound := by
  have hput := ((Work.refl s).putGroup g { s.group g with nextFree := used }).stores hs
  unfold State.groupScanned
  split
  · exact hput
  · exact hput

/-- The state in which a re-erase has ended, before the mount goes on (R139). -/
def State.reeraseEnded (s : State) (g : Nat) (failure : Option Origin) : State :=
  let c := modMount (fun m => { m with reerased := m.reerased + 1 }) (clearPort s)
  match failure with
  | none => eraseGroup g c
  | some o => retireGroup g o c

theorem reerased_eq (g : Nat) (failure : Option Origin) (s : State) :
    reerased g failure s = mountGroup (g + 1) (s.reeraseEnded g failure) := by
  cases failure <;> rfl

theorem group_retireGroup (g h : Nat) (o : Origin) (s : State) : (retireGroup g o s).group h =
    if h = g then { s.group g with state := .retired, origin := some o, erasing := false } else s.group h := by
  rw [← group_putGroup]
  have hgroups : (retireGroup g o s).mm.groups
      = (putGroup g { s.group g with state := .retired, origin := some o, erasing := false } s).mm.groups := by
    rw [retireGroup, addDefect_eq]
    rfl
  exact congrArg (fun x => (sparseGet h x).getD Group.fresh) hgroups

theorem storesSound_reeraseEnded (hs : s.StoresSound) (g : Nat) (failure : Option Origin) :
    (s.reeraseEnded g failure).StoresSound := by
  have hclear : Work s (modMount (fun m => { m with reerased := m.reerased + 1 }) (clearPort s)) := (Work.refl s).same rfl
  cases failure with
  | none => exact (hclear.eraseGroup g).stores hs
  | some o => exact (hclear.retireGroup g o).stores hs

/-! ### Rows without their event -/

theorem exec_mountEnd (h : s.AtRest) : exec .mountEnd s = .next (endUnit (mountFinish s)) := by
  change Host.Outcome.next (endUnit (mountFinish (caughtUp s))) = _
  rw [caughtUp_atRest h]

theorem mountFinish_none (h : s.mount = none) : mountFinish s = s := by
  unfold mountFinish
  rw [h]

theorem mountFinish_scan {m : Mount} (hm : s.mount = some m) (hp : m.phase = .scan) : mountFinish s = s := by
  unfold mountFinish
  rw [hm]
  dsimp only
  rw [hp]
  rfl

/-! ### The scan's part of the statement -/

/-- What a metadata read of the scan does (R140, R141). -/
theorem mountRead_scans (h : s.PortRuns .mount (.read loc)) (readable : Bool) :
    (s.cell loc = none → exec (.mountMetadataReadComplete readable) s
        = .next (endUnit (endGroup (loc / 64) (loc % 64) (clearPort s))))
      ∧ ∀ c, s.cell loc = some c → exec (.mountMetadataReadComplete readable) s
        = .next (endUnit (nextPosition loc (classify loc (c.scanClass readable) (clearPort s)))) := by
  rw [exec_mountRead h]
  exact ⟨fun hnone => by rw [scanPosition_erased hnone], fun c hc => by rw [scanPosition_programmed hc]⟩

theorem scanClass_torn {c : Cell} (h : c.complete = false) (readable : Bool) : c.scanClass readable = .torn readable := by
  simp [Cell.scanClass, h]

theorem scanClass_complete {c : Cell} (h : c.complete = true) (hl : c.metaLost = false) : c.scanClass true = .complete := by
  simp [Cell.scanClass, h, hl]

theorem scanClass_metadataError {c : Cell} {readable : Bool} (h : c.complete = true)
    (hr : readable = false ∨ c.metaLost = true) : c.scanClass readable = .metadataError := by
  rcases hr with hr | hr <;> simp [Cell.scanClass, h, hr]

theorem nextPosition_within (h : loc % 64 < 63) (s : State) : nextPosition loc s =
    { s with mm := { s.mm with port := some { req := .mount, op := .read (loc + 1), ticks := 0 } } } :=
  if_pos (Nat.succ_lt_succ h)

theorem nextPosition_last (h : loc % 64 = 63) (s : State) : nextPosition loc s = endGroup (loc / 64) 64 s :=
  if_neg (Nat.not_lt.2 (Nat.succ_le_succ h.ge))

end Sys2Proof.Machine
end

section
/-! The resolution of a mount: the map holds for every folio its candidate of highest rank (O58, R142). -/

namespace Sys2Proof.Machine

variable {f : Nat} {all : List (Loc × Cell)} {m : FolioMap} {p q : Loc × Cell}

/-! ### Candidates -/

theorem commits_iff (n t : Metadata) : n.commits t = true ↔ n.kind = .commitNote ∧ n.base = t.base ∧ n.start ≤ t.start
    ∧ t.start < n.start + n.count ∧ n.seq = n.base + BitVec.ofNat 32 n.count := by
  unfold Metadata.commits
  simp [and_assoc]

/-- The position is a candidate for folio `f` (R142). -/
def Covers (all : List (Loc × Cell)) (f : Nat) (p : Loc × Cell) : Prop :=
  let d := p.2.metadata
  (d.kind = .data ∧ d.start = f) ∨ (d.kind = .trimNote ∧ d.start ≤ f ∧ f < d.start + d.count)
    ∨ (d.kind = .tentative ∧ d.start = f ∧ ∃ q ∈ all, q.2.metadata.kind = .commitNote
      ∧ q.2.metadata.base = d.base ∧ q.2.metadata.start ≤ d.start
      ∧ d.start < q.2.metadata.start + q.2.metadata.count
      ∧ q.2.metadata.seq = q.2.metadata.base + BitVec.ofNat 32 q.2.metadata.count)

theorem candidateRange_covers (all : List (Loc × Cell)) (f : Nat) (p : Loc × Cell) :
    ((candidateRange all p.2.metadata).1 ≤ f
      ∧ f < (candidateRange all p.2.metadata).1 + (candidateRange all p.2.metadata).2) ↔ Covers all f p := by
  have hcommitted : (all.any fun q => q.2.metadata.commits p.2.metadata) = true ↔
      ∃ q ∈ all, q.2.metadata.kind = .commitNote ∧ q.2.metadata.base = p.2.metadata.base
        ∧ q.2.metadata.start ≤ p.2.metadata.start ∧ p.2.metadata.start < q.2.metadata.start + q.2.metadata.count
        ∧ q.2.metadata.seq = q.2.metadata.base + BitVec.ofNat 32 q.2.metadata.count := by
    simp only [List.any_eq_true, commits_iff]
  unfold Covers candidateRange
  dsimp only
  cases hk : p.2.metadata.kind with
  | data =>
    simp
    omega
  | trimNote => simp
  | commitNote => simp
  | tentative =>
    rw [← hcommitted]
    cases all.any fun q => q.2.metadata.commits p.2.metadata with
    | false => simp
    | true =>
      simp
      omega

/-- Puts over a range of folios change each entry of the range once. -/
theorem entry_foldl_put (b : MapEntry → MapEntry) (a n : Nat) (m : FolioMap) (f : Nat) :
    ((List.range n).foldl (fun m i => m.put (a + i) (b (m.entry (a + i)))) m).entry f
      = if a ≤ f ∧ f < a + n then b (m.entry f) else m.entry f := by
  induction n with
  | zero => rw [if_neg (by omega)]; rfl
  | succ n ih =>
    rw [List.range_succ, List.foldl_append, List.foldl_cons, List.foldl_nil, FolioMap.entry_put]
    by_cases hf : f = a + n
    · subst hf
      rw [if_pos rfl, if_pos (by omega), ih, if_neg (by omega)]
    · rw [if_neg hf, ih]
      exact if_congr (by omega) rfl rfl

theorem entry_offerAll (all : List (Loc × Cell)) (loc : Loc) (d : Metadata) (hm : m.wf = true) (f : Nat) :
    (offerAll all loc d m).entry f = betterEntry all loc d (m.entry f) := by
  have hwf := sparseWf_map (betterEntry all loc d) ((FolioMap.wf_iff m).1 hm).1
  unfold offerAll FolioMap.entry
  dsimp only
  rw [getD_sparseGet_filter hwf (fun p hp => by simpa using hp), sparseGet_map, Option.getD_map]

/-- A candidate is offered to the folios that it covers, and to no others. -/
theorem entry_offerCandidate (all : List (Loc × Cell)) (hm : m.wf = true) (hf : f < 245760) (p : Loc × Cell) :
    (Covers all f p → (offerCandidate all m p).entry f = betterEntry all p.1 p.2.metadata (m.entry f))
      ∧ (¬Covers all f p → (offerCandidate all m p).entry f = m.entry f) := by
  rw [← candidateRange_covers]
  unfold offerCandidate
  dsimp only
  split
  · next h =>
    have hrange : (candidateRange all p.2.metadata).1 = 0 ∧ (candidateRange all p.2.metadata).2 = Config.numFolios := by
      simpa using h
    rw [hrange.1, hrange.2, show Config.numFolios = 245760 from rfl]
    exact ⟨fun _ => entry_offerAll all p.1 p.2.metadata hm f, fun hn => absurd ⟨Nat.zero_le f, by omega⟩ hn⟩
  · rw [entry_foldl_put]
    exact ⟨fun h => if_pos h, fun h => if_neg h⟩

/-! ### The best candidate -/

theorem sparseGet_of_nodup {α : Type} {l : List (Nat × α)} (h : (l.map fun p => p.1).Nodup) {p : Nat × α} (hp : p ∈ l) :
    sparseGet p.1 l = some p.2 := by
  induction l with
  | nil => cases hp
  | cons x l ih =>
    obtain ⟨hx, hl⟩ := List.nodup_cons.1 h
    rcases List.mem_cons.1 hp with rfl | hp
    · exact if_pos rfl
    · have hne : x.1 ≠ p.1 := fun he => hx (List.mem_map.2 ⟨p, hp, he.symm⟩)
      exact (if_neg hne).trans (ih hl hp)

/-- What orders the candidates of one folio (R142). -/
def rankOf (p : Loc × Cell) : List Nat := candidateRank p.1 p.2.metadata

theorem entryRank_entryOf (hall : (all.map fun p => p.1).Nodup) (hp : p ∈ all) :
    entryRank all (entryOf p.1 p.2.metadata) = rankOf p := by
  unfold entryRank entryOf
  dsimp only
  rw [sparseGet_of_nodup hall hp]
  rfl

/-- The entry of folio `f` after the candidates `pre`: NEVER without one, otherwise that of a candidate of highest rank. -/
def Best (all : List (Loc × Cell)) (f : Nat) (pre : List (Loc × Cell)) (e : MapEntry) : Prop :=
  (e = .never ∧ ∀ p ∈ pre, ¬Covers all f p)
    ∨ ∃ p ∈ pre, Covers all f p ∧ e = entryOf p.1 p.2.metadata ∧ ∀ q ∈ pre, Covers all f q → ¬rankOf p < rankOf q

theorem Best.offer {pre : List (Loc × Cell)} {e : MapEntry} (hall : (all.map fun p => p.1).Nodup) (hsub : pre ⊆ all)
    (h : Best all f pre e) (hp : Covers all f p) : Best all f (pre ++ [p]) (betterEntry all p.1 p.2.metadata e) := by
  unfold betterEntry
  rcases h with ⟨rfl, hnone⟩ | ⟨w, hw, hcw, rfl, hbest⟩
  · have hlt : entryRank all .never < candidateRank p.1 p.2.metadata := List.nil_lt_cons _ _
    rw [if_pos hlt]
    refine .inr ⟨p, by simp, hp, rfl, fun q hq hcq => ?_⟩
    rcases List.mem_append.1 hq with hq | hq
    · exact absurd hcq (hnone q hq)
    · rw [List.mem_singleton.1 hq]
      exact List.lt_irrefl _
  · rw [entryRank_entryOf hall (hsub hw), show candidateRank p.1 p.2.metadata = rankOf p from rfl]
    by_cases hlt : rankOf w < rankOf p
    · rw [if_pos hlt]
      refine .inr ⟨p, by simp, hp, rfl, fun q hq hcq => ?_⟩
      rcases List.mem_append.1 hq with hq | hq
      · exact fun hpq => hbest q hq hcq (List.lt_trans hlt hpq)
      · rw [List.mem_singleton.1 hq]
        exact List.lt_irrefl _
    · rw [if_neg hlt]
      refine .inr ⟨w, List.mem_append_left _ hw, hcw, rfl, fun q hq hcq => ?_⟩
      rcases List.mem_append.1 hq with hq | hq
      · exact hbest q hq hcq
      · rw [List.mem_singleton.1 hq]
        exact hlt

theorem Best.pass {pre : List (Loc × Cell)} {e : MapEntry} (h : Best all f pre e) (hp : ¬Covers all f p) :
    Best all f (pre ++ [p]) e := by
  rcases h with ⟨rfl, hnone⟩ | ⟨w, hw, hcw, rfl, hbest⟩
  · refine .inl ⟨rfl, fun q hq => ?_⟩
    rcases List.mem_append.1 hq with hq | hq
    · exact hnone q hq
    · rw [List.mem_singleton.1 hq]
      exact hp
  · refine .inr ⟨w, List.mem_append_left _ hw, hcw, rfl, fun q hq hcq => ?_⟩
    rcases List.mem_append.1 hq with hq | hq
    · exact hbest q hq hcq
    · rw [List.mem_singleton.1 hq] at hcq
      exact absurd hcq hp

theorem best_foldl (hall : (all.map fun p => p.1).Nodup) (hf : f < 245760) (l pre : List (Loc × Cell)) (hsub : pre ++ l ⊆ all)
    (hm : m.wf = true) (h : Best all f pre (m.entry f)) : Best all f (pre ++ l) ((l.foldl (offerCandidate all) m).entry f) := by
  induction l generalizing pre m with
  | nil => rwa [List.append_nil]
  | cons p l ih =>
    have hsplit : pre ++ p :: l = (pre ++ [p]) ++ l := by simp
    rw [hsplit] at hsub ⊢
    have hpre : pre ⊆ all := fun q hq => hsub (by simp [hq])
    obtain ⟨hoffer, hpass⟩ := entry_offerCandidate all hm hf p
    refine ih (pre ++ [p]) hsub (offerCandidate_wf all m p hm) ?_
    by_cases hp : Covers all f p
    · rw [hoffer hp]
      exact h.offer hall hpre hp
    · rw [hpass hp]
      exact h.pass hp

/-- The entry of a folio after the resolution (R142). -/
theorem best_resolvedMap (hall : (all.map fun p => p.1).Nodup) (hf : f < 245760) :
    Best all f all ((resolvedMap all).entry f) :=
  best_foldl hall hf all [] (fun _ h => h) rfl (.inl ⟨rfl, nofun⟩)

/-- `q` ranks below `p`, or is `p` itself: sequence, copy_mark, location (R142). -/
def Below (q p : Loc × Cell) : Prop :=
  q.2.metadata.seq.toNat < p.2.metadata.seq.toNat ∨ (q.2.metadata.seq = p.2.metadata.seq
    ∧ (q.2.metadata.copyMark = false ∧ p.2.metadata.copyMark = true
      ∨ q.2.metadata.copyMark = p.2.metadata.copyMark ∧ q.1 ≤ p.1))

theorem below_iff (q p : Loc × Cell) : Below q p ↔ ¬rankOf p < rankOf q := by
  have hbit : ∀ a b : Bool, bit a < bit b ↔ a = false ∧ b = true := by decide
  have hbit' : ∀ a b : Bool, bit a = bit b ↔ a = b := by decide
  unfold Below rankOf candidateRank
  rw [triple_lt_iff, hbit, hbit', BitVec.toNat_inj]
  rcases lt_trichotomy q.2.metadata.seq.toNat p.2.metadata.seq.toNat with hlt | heq | hgt
  · have hne : p.2.metadata.seq ≠ q.2.metadata.seq := fun h => by rw [h] at hlt; omega
    simp [hlt, hne, hlt.le]
  · have hseq := BitVec.eq_of_toNat_eq heq
    rw [hseq]
    cases p.2.metadata.copyMark <;> cases q.2.metadata.copyMark <;> simp
  · have hne : q.2.metadata.seq ≠ p.2.metadata.seq := fun h => by rw [h] at hgt; omega
    simp [hgt, hne, hgt.le]

theorem Below.antisymm (hqp : Below q p) (hpq : Below p q) : q.1 = p.1 := by
  rcases hqp with hlt | ⟨heq, hmark⟩
  · rcases hpq with hgt | ⟨heq, -⟩
    · omega
    · rw [heq] at hlt
      omega
  · rcases hpq with hgt | ⟨-, hmark'⟩
    · rw [heq] at hgt
      omega
    · rcases hmark with ⟨hq, hp⟩ | ⟨hm, hle⟩
      · simp [hq, hp] at hmark'
      · rcases hmark' with ⟨hp, hq⟩ | ⟨-, hge⟩
        · rw [hm, hp] at hq
          cases hq
        · exact Nat.le_antisymm hle hge

/-- The entry of a folio with a candidate is that of its highest one (R142). -/
theorem resolvedMap_entry (hall : (all.map fun p => p.1).Nodup) (hf : f < 245760) (hp : p ∈ all) (hcp : Covers all f p)
    (hbest : ∀ q ∈ all, Covers all f q → Below q p) : (resolvedMap all).entry f = entryOf p.1 p.2.metadata := by
  rcases best_resolvedMap hall hf with ⟨-, hnone⟩ | ⟨w, hw, hcw, he, hall'⟩
  · exact absurd hcp (hnone p hp)
  · have hnot := hall' p hp hcp
    have hloc : w.1 = p.1 := (hbest w hw hcw).antisymm ((below_iff p w).2 hnot)
    have hcell : w.2 = p.2 := Option.some.inj ((sparseGet_of_nodup hall hw).symm.trans (hloc ▸ sparseGet_of_nodup hall hp))
    rw [he, hloc, hcell]

theorem resolvedMap_never (hall : (all.map fun p => p.1).Nodup) (hf : f < 245760) (h : ∀ p ∈ all, ¬Covers all f p) :
    (resolvedMap all).entry f = .never := by
  rcases best_resolvedMap hall hf with ⟨he, -⟩ | ⟨w, hw, hcw, -⟩
  · exact he
  · exact absurd hcw (h w hw)

end Sys2Proof.Machine
end

section
/-! The end of a mount: what resolution and the unit of MOUNT_END leave (O58, R142 to R144). -/

namespace Sys2Proof.Machine

variable {s t u : State} {m : Mount} {g : Nat} {loc : Loc}

/-! ### What the scan found -/

theorem mem_completeCells (m : Mount) (s : State) (p : Loc × Cell) :
    p ∈ s.completeCells m ↔ (p.1, .complete) ∈ m.scanned ∧ s.cell p.1 = some p.2 := by
  unfold State.completeCells
  rw [List.mem_filterMap]
  constructor
  · rintro ⟨⟨l, c⟩, hmem, h⟩
    dsimp only at h
    split_ifs at h with hc
    obtain ⟨x, hx, rfl⟩ := Option.map_eq_some_iff.1 h
    exact ⟨hc ▸ hmem, hx⟩
  · rintro ⟨hmem, hcell⟩
    exact ⟨_, hmem, by rw [if_pos rfl]; exact Option.map_eq_some_iff.2 ⟨p.2, hcell, rfl⟩⟩

/-- A value that a scanned position contributes to the sequence counter (R143). -/
def State.Contributes (s : State) (m : Mount) (v : Nat) : Prop := ∃ p ∈ m.scanned, ∃ c, s.cell p.1 = some c
  ∧ (p.2 = .complete ∨ p.2 = .torn true)
  ∧ (v = c.metadata.seq.toNat ∨ (c.metadata.kind = .tentative ∧ v = c.metadata.base.toNat + 16
    ∧ ∀ q ∈ s.completeCells m, ¬(q.2.metadata.kind = .commitNote ∧ q.2.metadata.base = c.metadata.base
      ∧ q.2.metadata.start ≤ c.metadata.start ∧ c.metadata.start < q.2.metadata.start + q.2.metadata.count
      ∧ q.2.metadata.seq = q.2.metadata.base + BitVec.ofNat 32 q.2.metadata.count)))

theorem mem_contributed (all : List (Loc × Cell)) (d : Metadata) (v : Nat) : v ∈ State.seqValues.contributed all d ↔
    v = d.seq.toNat ∨ (d.kind = .tentative ∧ v = d.base.toNat + 16 ∧ ∀ q ∈ all, ¬q.2.metadata.commits d = true) := by
  unfold State.seqValues.contributed
  by_cases h : d.kind = .tentative ∧ ∀ q ∈ all, ¬q.2.metadata.commits d = true
  · rw [if_pos (by simpa using h), List.mem_cons, List.mem_singleton]
    exact or_congr_right ⟨fun hv => ⟨h.1, hv, h.2⟩, fun hv => hv.2.1⟩
  · rw [if_neg (by simpa using h), List.mem_singleton]
    exact ⟨.inl, fun hv => hv.resolve_right fun hc => h ⟨hc.1, hc.2.2⟩⟩

theorem mem_seqValues (s : State) (all : List (Loc × Cell)) (p : Loc × ScanClass) (v : Nat) : v ∈ s.seqValues all p ↔
    ∃ c, s.cell p.1 = some c ∧ (p.2 = .complete ∨ p.2 = .torn true) ∧ v ∈ State.seqValues.contributed all c.metadata := by
  obtain ⟨l, k⟩ := p
  unfold State.seqValues
  dsimp only
  cases s.cell l with
  | none => cases k with
    | complete | metadataError => simp
    | torn b => cases b <;> simp
  | some c => cases k with
    | complete | metadataError => simp
    | torn b => cases b <;> simp

theorem contributes_iff (s : State) (m : Mount) (v : Nat) :
    v ∈ m.scanned.flatMap (s.seqValues (s.completeCells m)) ↔ s.Contributes m v := by
  unfold State.Contributes
  simp only [List.mem_flatMap, mem_seqValues, mem_contributed, commits_iff]

theorem foldl_max_eq (l : List Nat) (a v : Nat) (hv : v ∈ a :: l) (hall : ∀ w ∈ a :: l, w ≤ v) : l.foldl max a = v := by
  induction l generalizing a with
  | nil => exact (List.mem_singleton.1 hv).symm
  | cons b l ih =>
    rw [List.foldl_cons]
    refine ih (max a b) ?_ fun w hw => ?_
    · rcases List.mem_cons.1 hv with rfl | hv
      · have := hall b (by simp)
        rw [Nat.max_eq_left this]
        exact List.mem_cons_self
      · rcases List.mem_cons.1 hv with rfl | hv
        · have := hall a (by simp)
          rw [Nat.max_eq_right this]
          exact List.mem_cons_self
        · exact List.mem_cons_of_mem _ hv
    · rcases List.mem_cons.1 hw with rfl | hw
      · exact Nat.max_le.2 ⟨hall a (by simp), hall b (by simp)⟩
      · exact hall w (by simp [hw])

/-- The counter stands above every value found (R143). -/
theorem mountSeq_spec (s : State) (m : Mount) : ((∀ v, ¬s.Contributes m v) → s.mountSeq m = 1)
    ∧ ∀ v, s.Contributes m v → (∀ w, s.Contributes m w → w ≤ v) → s.mountSeq m = BitVec.ofNat 32 (v + 1) := by
  simp only [← contributes_iff]
  unfold State.mountSeq
  cases m.scanned.flatMap (s.seqValues (s.completeCells m)) with
  | nil => exact ⟨fun _ => rfl, fun v hv => by cases hv⟩
  | cons a l =>
    refine ⟨fun h => absurd List.mem_cons_self (h a), fun v hv hall => ?_⟩
    dsimp only
    rw [foldl_max_eq l a v hv hall]

/-! ### The commit notes -/

theorem noteSound_iff (d : Metadata) :
    d.noteSound = true ↔ d.kind = .commitNote ∧ d.seq = d.base + BitVec.ofNat 32 d.count := by
  simp [Metadata.noteSound]

theorem chosenNote_iff (all : List (Loc × Cell)) (p : Loc × Cell) : chosenNote all p = true ↔
    ∀ q ∈ all, q.2.metadata.kind = .commitNote → q.2.metadata.seq = p.2.metadata.seq →
      (q.2.metadata.copyMark = false ∧ p.2.metadata.copyMark = true)
        ∨ (q.2.metadata.copyMark = p.2.metadata.copyMark ∧ q.1 ≤ p.1) := by
  unfold chosenNote
  rw [Bool.not_eq_true', ← Bool.not_eq_true, List.any_eq_true]
  simp only [not_exists, not_and, Bool.and_eq_true, beq_iff_eq, decide_eq_true_eq, and_imp]
  refine forall_congr' fun q => imp_congr_right fun _ => imp_congr_right fun _ => imp_congr_right fun hseq => ?_
  have hbelow := below_iff q p
  unfold Below at hbelow
  refine hbelow.symm.trans ?_
  simp [hseq]

theorem mem_foundNotes (all : List (Loc × Cell)) (r : CommitNote) : r ∈ foundNotes all ↔
    ∃ c, (r.loc, c) ∈ all ∧ (c.metadata.noteSound = true ∧ chosenNote all (r.loc, c) = true)
      ∧ r = { start := c.metadata.start, count := c.metadata.count, base := c.metadata.base, seq := c.metadata.seq
              loc := r.loc } := by
  unfold foundNotes
  simp only [List.mem_map, List.mem_filter, Bool.and_eq_true]
  constructor
  · rintro ⟨⟨l, c⟩, ⟨hmem, hnote⟩, rfl⟩
    exact ⟨c, hmem, hnote, rfl⟩
  · rintro ⟨c, hmem, hnote, hr⟩
    exact ⟨(r.loc, c), ⟨hmem, hnote⟩, hr.symm⟩

/-! ### The FULL groups -/

/-- A group as the scan leaves it once the resolution has taken effect (R141). -/
def State.foundGroup (s : State) (m : Mount) (g : Nat) : Group :=
  if g ∈ m.fullGroups then { s.group g with state := .full, nextFree := 64 } else s.group g

theorem foldl_full (gs : List Nat) (s : State) :
    let t := gs.foldl (fun s g => putGroup g { s.group g with state := .full, nextFree := Config.groupFolios } s) s
    t = { s with mm := { s.mm with groups := t.mm.groups } }
      ∧ (∀ g, t.group g = if g ∈ gs then { s.group g with state := .full, nextFree := 64 } else s.group g)
      ∧ (GroupTable s → (∀ g ∈ gs, g < 4096) → GroupTable t) := by
  induction gs generalizing s with
  | nil => exact ⟨rfl, fun g => rfl, fun h _ => h⟩
  | cons a gs ih =>
    obtain ⟨hframe, hgroup, htable⟩ := ih (putGroup a { s.group a with state := .full, nextFree := Config.groupFolios } s)
    refine ⟨?_, fun g => ?_, fun h hlt => ?_⟩
    · rw [List.foldl_cons, hframe]
      rfl
    · rw [List.foldl_cons, hgroup, group_putGroup]
      by_cases hg : g = a
      · subst hg
        rw [if_pos List.mem_cons_self, if_pos rfl]
        split
        · rfl
        · rfl
      · simp only [List.mem_cons, hg, false_or, if_false]
    · obtain ⟨ha, hgs⟩ := List.forall_mem_cons.1 hlt
      exact htable (h.putGroup ha _) hgs

end Sys2Proof.Machine
end

section
/-! The unit of MOUNT_END (O58, R144). -/

namespace Sys2Proof.Machine

variable {s t u : State} {m : Mount} {g : Nat} {loc : Loc} {f : FaultCode}

/-! ### Step 1: the resolution takes effect -/

theorem mountResolve_frame (m : Mount) (s : State) : mountResolve m s = { s with mm := { s.mm with
    flash := (loseErrors m s).mm.flash, groups := (mountResolve m s).mm.groups
    map := resolvedMap (s.completeCells m), commitNotes := (mountResolve m s).mm.commitNotes, seq := s.mountSeq m
    hostOpen := none, reclaimOpen := none, victim := none, relocQueue := [], relocCopy := none } } := by
  obtain ⟨hframe, -, -⟩ := foldl_full m.fullGroups (loseErrors m s)
  unfold mountResolve
  dsimp only
  rw [hframe, (loseErrors_spec m s).1]
  rfl

theorem group_mountResolve (m : Mount) (s : State) (g : Nat) : (mountResolve m s).group g = s.foundGroup m g := by
  obtain ⟨-, hgroup, -⟩ := foldl_full m.fullGroups (loseErrors m s)
  have hlost : (loseErrors m s).group g = s.group g := by rw [(loseErrors_spec m s).1]; rfl
  have hg := hgroup g
  rw [hlost] at hg
  exact hg

theorem groupTable_mountResolve (hs : s.StoresSound) (hb : ∀ p ∈ s.mm.groups, p.1 < 4096) (hf : ∀ g ∈ m.fullGroups, g < 4096) :
    GroupTable (mountResolve m s) := by
  obtain ⟨-, -, htable⟩ := foldl_full m.fullGroups (loseErrors m s)
  have hlost : GroupTable (loseErrors m s) := GroupTable.congr ⟨hs.2.2.1, hb⟩ (by rw [(loseErrors_spec m s).1])
  exact (htable hlost hf).congr rfl

theorem cell_mountResolve (m : Mount) (s : State) (l : Loc) : (mountResolve m s).cell l =
    if (l, .metadataError) ∈ m.scanned then (s.cell l).map fun c => { c with metaLost := true } else s.cell l := by
  obtain ⟨-, -, hcell⟩ := loseErrors_spec m s
  rw [← hcell]
  unfold State.cell
  rw [mountResolve_frame]

theorem commitNotes_mountResolve (m : Mount) (s : State) : (mountResolve m s).mm.commitNotes
    = (foundNotes (s.completeCells m)).filter (mountResolve m s).noteLive := rfl

/-- A mark of lost metadata does not touch what makes a note live (R122). -/
theorem noteLive_mountResolve (hs : s.StoresSound) (m : Mount) (r : CommitNote) : (mountResolve m s).noteLive r = true ↔
    ∃ l x, s.cell l = some x ∧ x.complete = true ∧ x.metadata.kind = .tentative ∧ x.metadata.base = r.base
      ∧ (resolvedMap (s.completeCells m)).targets l = true := by
  have hmap : (mountResolve m s).mm.map = resolvedMap (s.completeCells m) := by rw [mountResolve_frame]
  rw [noteLive_iff (((Work.refl s).mountResolve m).stores hs), hmap]
  refine exists_congr fun l => ?_
  rw [cell_mountResolve]
  split
  · cases s.cell l <;> simp
  · rfl

/-! ### The steps before the fault -/

/-- MOUNT_END up to the fault: resolution, open groups, thresholds, reclaim's activity, counts (R144 steps 1 to 5). -/
def State.mountSettled (s : State) (m : Mount) : State :=
  mountCounts m (evalReclaim (mountReserve (takeHostOpen (takeReclaimOpen (mountResolve m s)))))

theorem mountFinish_resolution (hm : s.mount = some m) (hp : m.phase = .resolution) :
    mountFinish s = { mountFault m (s.mountSettled m) with mount := none } := by
  unfold mountFinish
  rw [hm]
  dsimp only
  rw [if_pos hp]
  rfl

theorem mountReserve_eq (s : State) : mountReserve s = { s with
    mm := { s.mm with readOnly := decide (s.reserve ≤ 4) }
    ntc := { s.ntc with evPending := s.ntc.evPending ||| (if s.reserve ≤ 24 then 32 else 0)
      ||| if s.reserve ≤ 4 then 64 else 0 } } := by
  have hr : ∀ v : State, (setEvent .spare v).reserve = v.reserve := fun _ => rfl
  have e1 : Config.spareThreshold = 24 := rfl
  have e2 : Config.readOnlyThreshold = 4 := rfl
  unfold mountReserve
  dsimp only
  rw [e1, e2]
  by_cases h1 : s.reserve ≤ 24
  · rw [if_pos h1, if_pos h1, hr]
    by_cases h2 : s.reserve ≤ 4
    · rw [if_pos h2, if_pos h2, decide_eq_true h2]
      rfl
    · rw [if_neg h2, if_neg h2, decide_eq_false h2, show ∀ x : BitVec 9, x ||| 0 = x from fun _ => BitVec.or_zero]
      rfl
  · have h2 : ¬s.reserve ≤ 4 := by omega
    rw [if_neg h1, if_neg h1, if_neg h2, if_neg h2, decide_eq_false h2]
    simp

theorem saturating_zero (n : Nat) : saturating 0 n = BitVec.ofNat 32 (min n (2 ^ 32 - 1)) := by
  unfold saturating
  rw [show (0 : Word).toNat + n = n by simp]
  rfl

/-- Steps 3 to 5 on top of the open groups `b` (R144). -/
theorem mountCounts_eq (m : Mount) (b : State) : mountCounts m (evalReclaim (mountReserve b)) = { b with
    mm := { b.mm with
      reclaimFill := decide (b.freeCount < 12) || (b.mm.reclaimFill && decide (b.freeCount < 16))
      readOnly := decide (b.reserve ≤ 4)
      health := { correctedReads := 0, correctedBits := 0, uncorrectableReads := 0, relocationsDone := 0
                  relocationsDropped := 0, mountTorn := BitVec.ofNat 32 (min m.torn (2 ^ 32 - 1))
                  mountMetaErrors := BitVec.ofNat 32 (min m.metaErrors (2 ^ 32 - 1))
                  mountReerased := BitVec.ofNat 32 (min m.reerased (2 ^ 32 - 1))
                  mountClosed := BitVec.ofNat 32 (min m.closed (2 ^ 32 - 1)) } }
    ntc := { b.ntc with evPending := b.ntc.evPending ||| (if b.reserve ≤ 24 then 32 else 0)
      ||| if b.reserve ≤ 4 then 64 else 0 } } := by
  rw [mountReserve_eq]
  unfold mountCounts
  simp only [saturating_zero]
  generalize b.reserve = r
  rfl

/-- The open groups of a mount's end (R144 step 2). -/
def State.mountOpened (s : State) (m : Mount) : State := takeHostOpen (takeReclaimOpen (mountResolve m s))

theorem mountOpened_frame (m : Mount) (s : State) : s.mountOpened m = { s with
    mm := { s.mm with
      flash := (loseErrors m s).mm.flash, map := resolvedMap (s.completeCells m), seq := s.mountSeq m
      groups := (s.mountOpened m).mm.groups, hostOpen := (s.mountOpened m).mm.hostOpen
      reclaimOpen := (s.mountOpened m).mm.reclaimOpen, commitNotes := (mountResolve m s).mm.commitNotes
      victim := none, relocQueue := [], relocCopy := none } } := by
  have hopen : s.mountOpened m = { mountResolve m s with mm := { (mountResolve m s).mm with
      groups := (s.mountOpened m).mm.groups, hostOpen := (s.mountOpened m).mm.hostOpen
      reclaimOpen := (s.mountOpened m).mm.reclaimOpen } } := opened_frame (mountResolve m s)
  have hresolve := mountResolve_frame m s
  generalize s.mountOpened m = b at hopen ⊢
  generalize b.mm.groups = x1 at hopen ⊢
  generalize b.mm.hostOpen = x2 at hopen ⊢
  generalize b.mm.reclaimOpen = x3 at hopen ⊢
  rw [hopen]
  generalize mountResolve m s = a at hresolve ⊢
  generalize a.mm.groups = x4 at hresolve ⊢
  generalize a.mm.commitNotes = x5 at hresolve ⊢
  rw [hresolve]

/-- What MOUNT_END leaves before its fault is raised (R144 steps 1 to 5). -/
theorem mountSettled_eq (m : Mount) (s : State) : s.mountSettled m = { s with
    mm := { s.mm with
      flash := (loseErrors m s).mm.flash, map := resolvedMap (s.completeCells m), seq := s.mountSeq m
      groups := (s.mountOpened m).mm.groups, hostOpen := (s.mountOpened m).mm.hostOpen
      reclaimOpen := (s.mountOpened m).mm.reclaimOpen, commitNotes := (mountResolve m s).mm.commitNotes
      reclaimFill := decide ((s.mountOpened m).freeCount < 12) || (s.mm.reclaimFill && decide ((s.mountOpened m).freeCount < 16))
      victim := none, relocQueue := [], relocCopy := none, readOnly := decide ((s.mountOpened m).reserve ≤ 4)
      health := { correctedReads := 0, correctedBits := 0, uncorrectableReads := 0, relocationsDone := 0
                  relocationsDropped := 0, mountTorn := BitVec.ofNat 32 (min m.torn (2 ^ 32 - 1))
                  mountMetaErrors := BitVec.ofNat 32 (min m.metaErrors (2 ^ 32 - 1))
                  mountReerased := BitVec.ofNat 32 (min m.reerased (2 ^ 32 - 1))
                  mountClosed := BitVec.ofNat 32 (min m.closed (2 ^ 32 - 1)) } }
    ntc := { s.ntc with evPending := s.ntc.evPending ||| (if (s.mountOpened m).reserve ≤ 24 then 32 else 0)
      ||| if (s.mountOpened m).reserve ≤ 4 then 64 else 0 } } := by
  have heq : s.mountSettled m = _ := mountCounts_eq m (s.mountOpened m)
  have hframe := mountOpened_frame m s
  rw [heq]
  generalize (s.mountOpened m).reserve = r
  generalize (s.mountOpened m).freeCount = k
  generalize s.mountOpened m = b at hframe ⊢
  generalize b.mm.groups = x1 at hframe ⊢
  generalize b.mm.hostOpen = x2 at hframe ⊢
  generalize b.mm.reclaimOpen = x3 at hframe ⊢
  rw [hframe]

/-! ### The fault -/

/-- Without a metadata error MOUNT is pending (R144 step 7). -/
theorem mountFault_none (h : m.firstMetaError = none) (s : State) : mountFault m s = setEvent .mount s := by
  unfold mountFault
  rw [h]

/-- F2 with the location of the first metadata error (R144 step 6, R160). -/
theorem mountFault_raises (h : m.firstMetaError = some loc) (h3 : ¬s.ntc.outstanding .f3 = true)
    (h4 : ¬s.ntc.outstanding .f4 = true) : mountFault m s = { s with
      rvt := (breakAll .fault s).rvt
      ntc := { s.ntc with
        evPending := s.ntc.evPending ||| (if s.rvt.entries = [] then 0 else 4) ||| 256
        faults := s.ntc.faults ||| 2, f2Detail := BitVec.ofNat 18 loc } } := by
  have hcoll : s.collidesWith .f2 = none := by rw [collidesWith_f2, if_neg h4, if_neg h3]
  unfold mountFault raiseMap
  rw [h]
  dsimp only
  rw [hcoll]
  unfold raiseFault
  dsimp only
  rw [breakAll_eq, breakAll_eq]
  rfl

/-- SPARE and RDONLY set again after the COLLISION reset (R144 step 6). -/
def eventsAfter (r : Nat) (s : State) : State :=
  let t := if r ≤ 24 then setEvent .spare s else s
  if r ≤ 4 then setEvent .rdOnly t else t

theorem eventsAfter_eq (r : Nat) (s : State) : eventsAfter r s = { s with ntc := { s.ntc with
    evPending := s.ntc.evPending ||| (if r ≤ 24 then 32 else 0) ||| if r ≤ 4 then 64 else 0 } } := by
  have hzero : ∀ x : BitVec 9, x ||| 0 = x := fun _ => BitVec.or_zero
  unfold eventsAfter
  split
  · split
    · rfl
    · rw [hzero]; rfl
  · split
    · rw [hzero]; rfl
    · rw [hzero, hzero]

/-- The order in which events become pending does not matter. -/
theorem raised_first (a b : BitVec 9) : (0 : BitVec 9) ||| a ||| b ||| 256 = 256 ||| a ||| b := by
  rw [show (0 : BitVec 9) ||| a = a from BitVec.zero_or]
  ac_rfl

/-- F2 collides: the COLLISION reset, after which SPARE and RDONLY are set again (R144 step 6, R163). -/
theorem mountFault_collides (h : m.firstMetaError = some loc) (hcoll : s.collidesWith .f2 = some f) :
    mountFault m s = { partialReset .collision (some (f, .f2)) s with
      ntc := { s.ntc with
        evPending := 256 ||| (if s.reserve ≤ 24 then 32 else 0) ||| if s.reserve ≤ 4 then 64 else 0
        faults := 0, level := 0, stack := [], quiet := 0, unannounced := 0, timer := none } } := by
  have hreset : raiseMap loc s = partialReset .collision (some (f, .f2)) s := by
    unfold raiseMap
    rw [hcoll]
  have hntc : (raiseMap loc s).ntc = s.ntc.partialReset := by rw [hreset, partialReset_frame]
  have hreserve : (raiseMap loc s).reserve = s.reserve := by
    unfold State.reserve State.groupsIn
    rw [hreset, partialReset_frame]
  have heq : mountFault m s = setEvent .mount (eventsAfter s.reserve (raiseMap loc s)) := by
    have hkeep : (if (raiseMap loc s).reserve ≤ Config.spareThreshold then setEvent .spare (raiseMap loc s)
        else raiseMap loc s).reserve = (raiseMap loc s).reserve := by split <;> rfl
    unfold mountFault
    rw [h]
    dsimp only
    rw [hcoll]
    simp only [Option.isSome_some, Bool.true_and, decide_eq_true_eq]
    rw [hkeep, ← hreserve]
    rfl
  rw [heq, eventsAfter_eq, ← hreset]
  generalize raiseMap loc s = v at hntc
  unfold setEvent
  dsimp only
  rw [hntc]
  exact congrArg (fun e => ({ v with ntc := { s.ntc.partialReset with evPending := e } } : State)) (raised_first _ _)

end Sys2Proof.Machine
end

section
/-! A mount as a whole: its scan, its resolution and its end (O58). -/

namespace Sys2Proof.Machine

variable {s t u : State} {m : Mount} {g : Nat} {loc : Loc} {f : FaultCode}

/-! ### What the fault leaves alone -/

/-- The fault of a mount's end leaves the media as they are, but for an operation at the port (R144, R177). -/
theorem mm_mountFault (ha : s.csq.apply = none) (m : Mount) : (mountFault m s).mm = { s.mm with port := (mountFault m s).mm.port }
    ∧ (s.mm.port = none → (mountFault m s).mm.port = none)
    ∧ (mountFault m s).fc = { s.fc with lines := (mountFault m s).fc.lines, draining := (mountFault m s).fc.draining }
    ∧ (mountFault m s).pending = s.pending := by
  cases hloc : m.firstMetaError with
  | none =>
    rw [mountFault_none hloc]
    exact ⟨rfl, id, rfl, rfl⟩
  | some loc =>
    cases hcoll : s.collidesWith .f2 with
    | some f =>
      rw [mountFault_collides hloc hcoll, partialReset_frame, completeFirst_of_none ha]
      exact ⟨rfl, fun hp => congrArg (Option.map PortOp.orphaned) hp, rfl, rfl⟩
    | none =>
      rw [collidesWith_f2] at hcoll
      split_ifs at hcoll with h4 h3
      rw [mountFault_raises hloc h3 h4]
      exact ⟨rfl, id, rfl, rfl⟩

theorem freeCount_congr (h : t.mm.groups = s.mm.groups) : t.freeCount = s.freeCount := by
  unfold State.freeCount
  rw [h]

theorem reserve_congr (h : t.mm.groups = s.mm.groups) : t.reserve = s.reserve := by
  unfold State.reserve State.groupsIn
  rw [h]

theorem group_congr (h : t.mm.groups = s.mm.groups) (g : Nat) : t.group g = s.group g :=
  congrArg (fun x => (sparseGet g x).getD Group.fresh) h

/-! ### The roles at the end of a mount -/

/-- The open groups at the end of a mount are the best FREE groups that the scan found (R121, R144). -/
theorem rolesFilled_mountOpened (hs : s.StoresSound) (hb : ∀ p ∈ s.mm.groups, p.1 < 4096) (hf : ∀ g ∈ m.fullGroups, g < 4096) :
    RolesFilled (mountResolve m s) (s.mountOpened m) := rolesFilled (groupTable_mountResolve hs hb hf)

theorem roles_mountResolve (m : Mount) (s : State) :
    (mountResolve m s).mm.reclaimOpen = none ∧ (mountResolve m s).mm.hostOpen = none := ⟨rfl, rfl⟩

/-! ### The fault of the end -/

theorem mountSettled_frame (m : Mount) (s : State) :
    s.mountSettled m = { s with mm := (s.mountSettled m).mm, ntc := (s.mountSettled m).ntc } := by
  conv_lhs => rw [mountSettled_eq]
  rw [mountSettled_eq]

theorem mountSettled_ntc (m : Mount) (s : State) : (s.mountSettled m).ntc = { s.ntc with
    evPending := s.ntc.evPending ||| (if (s.mountOpened m).reserve ≤ 24 then 32 else 0)
      ||| if (s.mountOpened m).reserve ≤ 4 then 64 else 0 } := by
  rw [mountSettled_eq]

theorem groups_mountSettled (m : Mount) (s : State) : (s.mountSettled m).mm.groups = (s.mountOpened m).mm.groups := by
  rw [mountSettled_eq]

theorem raised_last (e a b : BitVec 9) : e ||| a ||| b ||| 256 = e ||| (256 ||| a ||| b) := by ac_rfl

theorem raised_rsvLost (e a b c : BitVec 9) : e ||| a ||| b ||| c ||| 256 = e ||| (256 ||| a ||| b) ||| c := by ac_rfl

/-- What MOUNT, SPARE and RDONLY are pending at the end of a mount whose reserve is `r` (R144). -/
def mountEvents (r : Nat) : BitVec 9 := 256 ||| (if r ≤ 24 then 32 else 0) ||| if r ≤ 4 then 64 else 0

/-- A mount without a metadata error raises no fault (R144 step 7). -/
theorem mountEnd_none (h : m.firstMetaError = none) (s : State) : mountFault m (s.mountSettled m) = { s with
    mm := (s.mountSettled m).mm
    ntc := { s.ntc with evPending := s.ntc.evPending ||| mountEvents (s.mountOpened m).reserve } } := by
  have hframe := mountSettled_frame m s
  have hntc := mountSettled_ntc m s
  unfold mountEvents
  rw [mountFault_none h, ← raised_last]
  generalize (s.mountOpened m).reserve = r at hntc ⊢
  generalize s.mountSettled m = e at hframe hntc ⊢
  generalize e.mm = x at hframe ⊢
  generalize e.ntc = y at hframe hntc
  rw [hframe, hntc]
  rfl

/-- A mount with a metadata error raises F2 (R144 step 6, R160). -/
theorem mountEnd_raises (h : m.firstMetaError = some loc) (h3 : ¬s.ntc.outstanding .f3 = true)
    (h4 : ¬s.ntc.outstanding .f4 = true) :
    mountFault m (s.mountSettled m) = { s with
        mm := (s.mountSettled m).mm, rvt := (breakAll .fault (s.mountSettled m)).rvt
        ntc := { s.ntc with
          evPending := s.ntc.evPending ||| mountEvents (s.mountOpened m).reserve ||| (if s.rvt.entries = [] then 0 else 4)
          faults := s.ntc.faults ||| 2, f2Detail := BitVec.ofNat 18 loc } }
      ∧ (breakAll .fault (s.mountSettled m)).rvt.entries = [] := by
  have hframe := mountSettled_frame m s
  have hntc := mountSettled_ntc m s
  have hout : ∀ f, (s.mountSettled m).ntc.outstanding f = s.ntc.outstanding f := fun f => by rw [hntc]; rfl
  have hrvt : (s.mountSettled m).rvt = s.rvt := by rw [hframe]
  refine ⟨?_, by rw [breakAll_eq]⟩
  unfold mountEvents
  rw [mountFault_raises h (by rwa [hout]) (by rwa [hout]), hrvt, ← raised_rsvLost]
  generalize (breakAll .fault (s.mountSettled m)).rvt = z
  generalize (s.mountOpened m).reserve = r at hntc ⊢
  generalize s.mountSettled m = e at hframe hntc ⊢
  generalize e.mm = x at hframe ⊢
  generalize e.ntc = y at hframe hntc ⊢
  rw [hframe, hntc]

/-- A mount with a metadata error whose F2 collides with `f` (R144 step 6, R163). -/
theorem mountEnd_collides (h : m.firstMetaError = some loc) (hf : s.ntc.outstanding f = true) (hhard : f = .f3 ∨ f = .f4)
    (h4 : s.ntc.outstanding .f4 = true → f = .f4) :
    mountFault m (s.mountSettled m) = { partialReset .collision (some (f, .f2)) (s.mountSettled m) with
      ntc := { s.ntc with
        evPending := mountEvents (s.mountOpened m).reserve
        faults := 0, level := 0, stack := [], quiet := 0, unannounced := 0, timer := none } } := by
  have hntc := mountSettled_ntc m s
  have hout : ∀ f, (s.mountSettled m).ntc.outstanding f = s.ntc.outstanding f := fun f => by rw [hntc]; rfl
  have hreserve : (s.mountSettled m).reserve = (s.mountOpened m).reserve := reserve_congr (groups_mountSettled m s)
  have hcoll : (s.mountSettled m).collidesWith .f2 = some f := by
    rw [collidesWith_f2, hout, hout]
    by_cases ho : s.ntc.outstanding .f4 = true
    · rw [if_pos ho, h4 ho]
    · rcases hhard with rfl | rfl
      · rw [if_neg ho, if_pos hf]
      · exact absurd hf ho
  unfold mountEvents
  rw [mountFault_collides h hcoll, hreserve]
  generalize (s.mountOpened m).reserve = r at hntc ⊢
  generalize s.mountSettled m = e at hntc ⊢
  rw [hntc]

/-! ### The statement -/

theorem reeraseEnded_failed (g : Nat) (o : Origin) (s : State) : s.reeraseEnded g (some o) = { s with
    mount := (s.reeraseEnded g (some o)).mount
    mm := { s.mm with
      port := none, groups := (s.reeraseEnded g (some o)).mm.groups
      defects := if s.mm.defects.length < 256 then s.mm.defects ++ [{ group := g, origin := o }] else s.mm.defects }
    ntc := { s.ntc with evPending := s.ntc.evPending ||| 16 } } := by
  unfold State.reeraseEnded
  dsimp only
  rw [retireGroup, addDefect_eq]
  rfl

/-- What a classified position adds to the record of the mount (R140). -/
theorem classify_eq (loc : Loc) (x : ScanClass) (s : State) : classify loc x s = { s with
    mount := s.mount.map fun m => { m with
      scanned := m.scanned ++ [(loc, x)]
      torn := match x with | .torn _ => m.torn + 1 | _ => m.torn
      metaErrors := if x = .metadataError then m.metaErrors + 1 else m.metaErrors
      firstMetaError := if x = .metadataError ∧ m.firstMetaError = none then some loc else m.firstMetaError } } := by
  have hfirst : ∀ m : Mount, (x = .metadataError && m.firstMetaError.isNone) = true ↔
      x = .metadataError ∧ m.firstMetaError = none := fun m => by simp
  unfold classify modMount
  simp only [hfirst]
  cases x <;> rfl

/-- Settles O58. -/
theorem mountScansThenResolves : Obligations.MountScansThenResolves := by
  unfold Obligations.MountScansThenResolves
  intro onTo
  have hon : ∀ k u v, onTo k u v = OnTo k u v := fun _ _ _ => rfl
  refine ⟨fun s loc readable h => ?_, fun s loc => ⟨fun x => ?_, fun h => nextPosition_within h s, fun h => nextPosition_last h s⟩,
    fun s g used hs => ?_, fun s g ok h => ?_, fun s g failure hs => ?_, fun s m hrest hm hp => ?_,
    fun s m hrest hm hp ha hs hb hf => ?_, fun s hrest hm => ?_, fun all f hall hf => ⟨fun h => ?_, fun p hp hcp hbest => ?_⟩⟩
  · obtain ⟨hnone, hsome⟩ := mountRead_scans h readable
    refine ⟨hnone, fun c hc => ⟨fun htorn => ?_, fun hcomplete hread hlost => ?_, fun hcomplete hbad => ?_⟩⟩
    · exact (hsome c hc).trans (by rw [scanClass_torn htorn]; rfl)
    · exact (hsome c hc).trans (by rw [hread, scanClass_complete hcomplete hlost]; rfl)
    · exact (hsome c hc).trans (by rw [scanClass_metadataError hcomplete hbad]; rfl)
  · exact classify_eq loc x s
  · refine ⟨s.groupScanned g used, ?_, groupScanned_frame g used s, ?_, fun h hne => ?_, fun h => ?_, fun hpos hst => ?_⟩
    · rw [hon, endGroup_eq]
      exact onTo_mountGroup (storesSound_groupScanned hs g used) (g + 1)
    · rw [group_groupScanned, if_pos rfl]
    · rw [group_groupScanned, if_neg hne]
    · unfold State.groupScanned
      rw [if_pos h]
      rfl
    · unfold State.groupScanned
      rw [if_neg fun h => h.elim hpos.ne' hst]
      rfl
  · rw [exec_mountErase h]
  · refine ⟨s.reeraseEnded g failure, ?_, ?_, fun h hne => ?_, fun hok => ?_, fun o ho => ?_⟩
    · rw [hon, reerased_eq]
      exact onTo_mountGroup (storesSound_reeraseEnded hs g failure) (g + 1)
    · cases failure with
      | none => rfl
      | some o =>
        change (retireGroup g o _).mount = _
        rw [retireGroup, addDefect_eq]
        rfl
    · cases failure with
      | none => exact (group_eraseGroup g h _).trans (if_neg hne)
      | some o => exact (group_retireGroup g h o _).trans (if_neg hne)
    · rw [hok]
      exact ⟨rfl, fun l => cell_eraseGroup g l _, (group_eraseGroup g g _).trans (if_pos rfl)⟩
    · rw [ho]
      exact ⟨reeraseEnded_failed g o s, (group_retireGroup g g o _).trans (if_pos rfl)⟩
  · rw [exec_mountEnd hrest, mountFinish_scan hm hp]
  · obtain ⟨u, hu⟩ : ∃ u, u = { mountFault m (s.mountSettled m) with mount := none } := ⟨_, rfl⟩
    have hset := mountSettled_eq m s
    have happly : (s.mountSettled m).csq.apply = none := by rw [mountSettled_frame]; exact ha
    obtain ⟨hfmm, hfport, hffc, hfpending⟩ := mm_mountFault happly m
    have hfill := rolesFilled_mountOpened hs hb hf
    have hgroups : u.mm.groups = (s.mountOpened m).mm.groups := by
      rw [hu, ← groups_mountSettled]
      change (mountFault m (s.mountSettled m)).mm.groups = _
      rw [hfmm]
    have hgroup : ∀ g, u.group g = (s.mountOpened m).group g := group_congr hgroups
    have hmm : u.mm = { (s.mountSettled m).mm with port := u.mm.port } := by rw [hu]; exact hfmm
    have hsmm : (s.mountSettled m).mm = _ := congrArg State.mm hset
    rw [hsmm] at hmm
    have hcell : ∀ l, u.cell l = (mountResolve m s).cell l := fun l => by
      unfold State.cell
      rw [hmm, mountResolve_frame]
    have hmap : u.mm.map = resolvedMap (s.completeCells m) := by rw [hmm]
    have hreclaim : u.mm.reclaimOpen = (s.mountOpened m).mm.reclaimOpen := by rw [hmm]
    have hhost : u.mm.hostOpen = (s.mountOpened m).mm.hostOpen := by rw [hmm]
    have hfound : ∀ g, (mountResolve m s).group g = s.foundGroup m g := group_mountResolve m s
    have hsfc : (s.mountSettled m).fc = s.fc := by rw [mountSettled_frame]
    have hout : ∀ f : FaultCode, s.ntc.outstanding f = true ↔ _ := fun f => outstanding_iff s.ntc f
    obtain ⟨-, -, hreclaimFirst, hreclaimEmpty, hhostFirst, hhostEmpty, hopened⟩ := hfill
    rw [exec_mountEnd hrest, mountFinish_resolution hm hp, ← hu]
    refine ⟨u, rfl, by rw [hu], ?_, ?_, ?_, fun hport => ?_, hmap, fun l => ?_, mem_completeCells m s, fun r => ?_, ?_, ?_,
      fun g => ?_, fun g hg => ?_, fun hnone g => ?_, fun g hg => ?_, ?_, fun hnone => ?_, fun loc hloc => ⟨fun h3 h4 => ?_,
        fun f hhard hout' h4 => ?_⟩⟩
    · rw [hu]
      exact hffc.trans (by rw [hsfc])
    · rw [hu]
      exact hfpending.trans (by rw [mountSettled_frame])
    · rw [freeCount_congr hgroups, reserve_congr hgroups]
      generalize (s.mountOpened m).reserve = r at hmm ⊢
      generalize (s.mountOpened m).freeCount = k at hmm ⊢
      generalize u.mm = x at hmm ⊢
      generalize x.port = y at hmm ⊢
      rw [hmm]
    · rw [hu]
      exact hfport (by rw [hsmm]; exact hport)
    · rw [hcell, cell_mountResolve]
    · have hnotes : u.mm.commitNotes = (foundNotes (s.completeCells m)).filter (mountResolve m s).noteLive := by
        rw [hmm, commitNotes_mountResolve]
      rw [hnotes, List.mem_filter, mem_foundNotes, noteLive_mountResolve hs, hmap]
      simp only [noteSound_iff, chosenNote_iff]
      constructor
      · rintro ⟨⟨c, hmem, ⟨⟨hkind, hseq⟩, hchosen⟩, hr⟩, hlive⟩
        exact ⟨c, hmem, hkind, hseq, hr, hchosen, hlive⟩
      · rintro ⟨c, hmem, hkind, hseq, hr, hchosen, hlive⟩
        exact ⟨⟨c, hmem, ⟨⟨hkind, hseq⟩, hchosen⟩, hr⟩, hlive⟩
    · rw [hmm]
      exact (mountSeq_spec s m).1
    · rw [hmm]
      exact (mountSeq_spec s m).2
    · rw [hgroup, hopened, hfound, hreclaim, hhost]
      by_cases h : (s.mountOpened m).mm.reclaimOpen = some g ∨ (s.mountOpened m).mm.hostOpen = some g
      · rw [if_pos h, if_pos (h.imp (fun hr => ⟨rfl, hr⟩) fun hr => ⟨rfl, hr⟩)]
        rfl
      · rw [if_neg h, if_neg fun hc => h (hc.imp And.right And.right)]
        rfl
    · have hfirst := hreclaimFirst g ⟨rfl, hreclaim ▸ hg⟩
      simp only [State.First, State.IsFree, hfound] at hfirst
      exact hfirst
    · have hempty := hreclaimEmpty (hreclaim ▸ hnone) g
      simp only [State.IsFree, hfound] at hempty
      exact hempty
    · have hfirst := hhostFirst g ⟨rfl, hhost ▸ hg⟩
      simp only [State.First, State.IsFree, hfound, (roles_mountResolve m s).1, true_and, ← hreclaim] at hfirst
      exact hfirst
    · rw [hhost, hhostEmpty, (roles_mountResolve m s).1, (roles_mountResolve m s).2, if_pos rfl]
      simp only [true_and, State.number, hfound]
      rfl
    · have hend := mountEnd_none hnone s
      have humm : u.mm = (s.mountSettled m).mm := by rw [hu, hend]
      rw [reserve_congr hgroups, humm, hu, hend]
      rfl
    · obtain ⟨hend, hrvt⟩ := mountEnd_raises hloc (fun h => h3 ((hout .f3).1 h)) fun h => h4 ((hout .f4).1 h)
      have humm : u.mm = (s.mountSettled m).mm := by rw [hu, hend]
      have hurvt : u.rvt = (breakAll .fault (s.mountSettled m)).rvt := by rw [hu, hend]
      refine ⟨?_, by rw [hurvt, hrvt]⟩
      rw [reserve_congr hgroups, humm, hurvt, hu, hend]
      generalize (breakAll .fault (s.mountSettled m)).rvt = z
      generalize (s.mountSettled m).mm = y
      unfold mountEvents
      generalize (s.mountOpened m).reserve = r
      dsimp only
    · have hend := mountEnd_collides hloc ((hout f).2 hout') hhard fun h => h4 ((hout .f4).1 h)
      have hrst : (s.mountSettled m).rst = s.rst := by rw [mountSettled_frame]
      rw [reserve_congr hgroups, hu, hend, partialReset_frame, hrst]
      exact ⟨rfl, rfl, rfl, rfl, rfl⟩
  · rw [exec_mountEnd hrest, mountFinish_none hm]
  · exact resolvedMap_never hall hf h
  · exact resolvedMap_entry hall hf hp hcp hbest

end Sys2Proof.Machine
end

end
